-- ==== Sys2Proof/Word.lean ====
section
/-! DEFINITION. The words of papaguy CORE: transport bytes and the 16-bit payload (R13, R91).
Every other quantity of the spec is an integer (R14). -/

namespace Sys2Proof

/-- One byte of the transport, `b[7:0]` (R13). -/
abbrev Byte := BitVec 8

/-- The 16-bit unsigned payload of a frame (R91, R93). -/
abbrev Payload := BitVec 16

end Sys2Proof
end

