-- ==== Sys2Proof/Config.lean ====
section
/-! DEFINITION. The configuration record CFG (R9), the example set EX (D1), the values of the input ports
(R53 to R57), and the free values: what the environment supplies and what a build may replace. -/

namespace Sys2Proof

/-- The motion axes (R11). -/
inductive Axis where
  | bodyTilt
  | wings
  | headTilt
  | headRotate
  | beak
deriving DecidableEq, Repr

/-- The binary outputs (R12). -/
inductive BinOut where
  | eyes
  | fog
  | indicator
deriving DecidableEq, Repr

/-- The calibrated physical range of an axis: `r0` at the low end of its domain, `r1` at the high end.
A reversed axis has `r1 < r0` (R9, R151). -/
structure CalRange where
  r0 : Int
  r1 : Int
deriving DecidableEq, Repr

/-- Which function a build uses as AVG_UPDATE (R212, D10, U5): the default floor division, or its own,
which is then the free value `Config.avgReplaced` (log 15). -/
inductive AvgRule where
  | floorDivision
  | replaced
deriving DecidableEq, Repr

/-- The configuration record CFG (R9), fixed at build time (R36).
A parameter the spec indexes is one field per index, or a list read by an accessor below. -/
structure Config where
  /-- `CAL_RANGE[BODY_TILT]`; `none` means unmapped -/
  calBodyTilt : Option CalRange
  /-- `CAL_RANGE[WINGS]` -/
  calWings : Option CalRange
  /-- `CAL_RANGE[HEAD_ROTATE]` -/
  calHeadRotate : Option CalRange
  /-- `CAL_RANGE[BEAK]` -/
  calBeak : Option CalRange
  /-- `HT_LO_DMAX`, the upper end of the lower head-tilt sub-domain -/
  htLoDmax : Int
  /-- `HT_LO_R0`, `HT_LO_R1` -/
  htLo : CalRange
  /-- `HT_HI_DMIN`, the lower end of the upper head-tilt sub-domain -/
  htHiDmin : Int
  /-- `HT_HI_R0`, `HT_HI_R1` -/
  htHi : CalRange
  /-- `NATIVE_MIN` -/
  nativeMin : Int
  /-- `NATIVE_MAX` -/
  nativeMax : Int
  /-- `OUT_MIN` -/
  outMin : Int
  /-- `OUT_MAX` -/
  outMax : Int
  /-- `ENV_AXIS_A`, named by its opcode value (R11, R49; log 24) -/
  envAxisA : Nat
  /-- `ENV_AXIS_B`, named by its opcode value -/
  envAxisB : Nat
  /-- `ENV_PERIOD` -/
  envPeriod : Nat
  /-- `ENV_OUTPUT` -/
  envOutput : BinOut
  /-- `ENV_LEVEL_THRESHOLD`, 0..65535 -/
  envLevelThreshold : Payload
  /-- `BIN_BOUND[EYES]` -/
  binEyes : Bool
  /-- `BIN_BOUND[FOG]` -/
  binFog : Bool
  /-- `BIN_BOUND[INDICATOR]` -/
  binIndicator : Bool
  /-- `NUM_CHANNELS` -/
  numChannels : Nat
  /-- `INPUT_BOUND[0..]`; a channel the list does not reach has no input (log 6) -/
  inputBound : List Bool
  /-- `SAMPLE_BITS` -/
  sampleBits : Nat
  /-- `HIST_LEN` -/
  histLen : Nat
  /-- `AVG_CAP` -/
  avgCap : Nat
  /-- `AVG_FLOOR` -/
  avgFloor : Nat
  /-- AVG_UPDATE: the default or the build's own (R212, D10, U5) -/
  avgRule : AvgRule
  /-- `NOISE_THRESHOLD` -/
  noiseThreshold : Nat
  /-- `END_THRESHOLD` -/
  endThreshold : Nat
  /-- `REF_CHANNEL` -/
  refChannel : Nat
  /-- `DURATION_BITS` -/
  durationBits : Nat
  /-- `SCORE_BITS` -/
  scoreBits : Nat
  /-- `AGG_PERIOD` -/
  aggPeriod : Nat
  /-- `CYCLE_WRAP` -/
  cycleWrap : Nat
  /-- `CYCLE_BITS` -/
  cycleBits : Nat
  /-- `EMULATION_PERMITTED` -/
  emulationPermitted : Bool
  /-- `EMU_INDEX_SPAN` -/
  emuIndexSpan : Nat
  /-- `EMU_MAIN_MAX` -/
  emuMainMax : Nat
  /-- `EMU_NEIGHBOR_MAX` -/
  emuNeighborMax : Nat
deriving DecidableEq, Repr

namespace Config

/-- `CAL_RANGE[a]` (R9). HEAD_TILT has none: it always takes the split path (R157). -/
def calRange (cfg : Config) : Axis → Option CalRange
  | .bodyTilt => cfg.calBodyTilt
  | .wings => cfg.calWings
  | .headTilt => none
  | .headRotate => cfg.calHeadRotate
  | .beak => cfg.calBeak

/-- `BIN_BOUND[b]` (R9). -/
def binBound (cfg : Config) : BinOut → Bool
  | .eyes => cfg.binEyes
  | .fog => cfg.binFog
  | .indicator => cfg.binIndicator

/-- `INPUT_BOUND[c]` (R9). -/
def inputBoundAt (cfg : Config) (c : Nat) : Bool := cfg.inputBound.getD c false

/-- The example configuration EX (R9, D1). DESIGN CHOICE: `State.reset` carries it (log 2). -/
def ex : Config where
  calBodyTilt := some ⟨200, 800⟩
  calWings := some ⟨900, 100⟩
  calHeadRotate := some ⟨100, 923⟩
  calBeak := none
  htLoDmax := 511
  htLo := ⟨300, 512⟩
  htHiDmin := 512
  htHi := ⟨512, 900⟩
  nativeMin := 0
  nativeMax := 1023
  outMin := 0
  outMax := 180
  envAxisA := 5
  envAxisB := 2
  envPeriod := 3
  envOutput := .eyes
  envLevelThreshold := 511
  binEyes := true
  binFog := false
  binIndicator := true
  numChannels := 4
  inputBound := [true, true, true, false]
  sampleBits := 10
  histLen := 4
  avgCap := 64
  avgFloor := 32
  avgRule := .floorDivision
  noiseThreshold := 40
  endThreshold := 8
  refChannel := 0
  durationBits := 16
  scoreBits := 16
  aggPeriod := 10
  cycleWrap := 300
  cycleBits := 9
  emulationPermitted := true
  emuIndexSpan := 6
  emuMainMax := 255
  emuNeighborMax := 255

end Config

/-- The checks of R10, by name. -/
inductive CfgCheck where
  /-- `WF_NATIVE_SPAN` -/
  | nativeSpan
  /-- `WF_RANGE_IN_NATIVE` -/
  | rangeInNative
  /-- `WF_HT_DOMAIN` -/
  | htDomain
  /-- `WF_ENV_AXES` -/
  | envAxes
  /-- `WF_PERIODS` -/
  | periods
  /-- `WF_HIST` -/
  | hist
  /-- `WF_AVG` -/
  | avg
  /-- `WF_REF` -/
  | ref
  /-- `WF_WIDTHS` -/
  | widths
  /-- `WF_EMU` -/
  | emu
  /-- `WF_DATAPATH` -/
  | datapath
deriving DecidableEq, Repr

/-- The attachment port `In.attached`, 1 bit per motion axis (R55). -/
structure Attached where
  bodyTilt : Bool
  wings : Bool
  headTilt : Bool
  headRotate : Bool
  beak : Bool
deriving DecidableEq, Repr, Inhabited

/-- The draw port `In.draw`, a tuple `(idx, main, left, right)` (R57). -/
structure Draw where
  idx : Nat
  main : Nat
  left : Nat
  right : Nat
deriving DecidableEq, Repr, Inhabited

/-- The outcome of an underrun (R123): the held bytes are dropped, or each missing payload byte takes a
drawn value, `hi` at position 1 and `lo` at position 2. -/
inductive Underrun where
  | drop
  | fill (hi lo : Byte)
deriving DecidableEq, Repr, Inhabited

/-- All that the environment chooses for one cycle (R52, R81). -/
structure CycleInput where
  /-- bytes appended to RX between the previous cycle and this one, oldest first (R53, R104) -/
  arrivals : List Byte
  /-- `In.sample[0..]` (R54); a sample the list does not reach is 0 (log 6) -/
  samples : List Nat
  /-- `In.attached` (R55) -/
  attached : Attached
  /-- `In.draw` (R57) -/
  draw : Draw
  /-- bytes that arrive during a tail wait of this cycle, before it expires (R122; log 7) -/
  wait : List Byte
  /-- the outcome, should the tail wait of this cycle expire (R123) -/
  underrun : Underrun
  /-- whether RX is retained, should this cycle restart (R282) -/
  keepRx : Bool
deriving DecidableEq, Repr, Inhabited

/-- FREE VALUE (log 4): what the environment supplies in the `k`-th cycle for which a state scripts no
input. Nothing constrains it. -/
opaque Config.freeInput : Nat → CycleInput

/-- FREE VALUE (log 15): AVG_UPDATE of a build that replaces the default, on the counter, the average and
the sample (R212, D10, U5). Nothing constrains it. -/
opaque Config.avgReplaced : Nat → Nat → Nat → Nat

end Sys2Proof
end

