-- ==== Sys2Proof/Machine/Operands.lean ====
section
/-! DEFINITION. The arithmetic of the spec (R14), the operand forms of a payload (R95, R143, R150) and the
identifier spaces (R49). -/

namespace Sys2Proof.Machine

/-- `tdiv(a, b)`: division truncating toward zero (R14). -/
def tdiv (a b : Int) : Int := Int.tdiv a b

/-- `fdiv(a, b)`: division rounded down, of non-negative operands (R14). -/
def fdiv (a b : Nat) : Nat := a / b

/-- `clamp(v, a, b)`, independent of the order of the bounds (R14, R142). -/
def clamp (v a b : Int) : Int := max (min a b) (min (max a b) v)

/-- `sat_N(v)`: the largest N-bit value where v exceeds it (R14). -/
def sat (bits v : Nat) : Nat := min v (2 ^ bits - 1)

/-- Linear interpolation (R141): exact on integers, the division truncating toward zero. -/
def interp (x d0 d1 r0 r1 : Int) : Int := r0 + tdiv ((x - d0) * (r1 - r0)) (d1 - d0)

/-- The payload as an unsigned integer, never sign-extended (R93). -/
def payloadVal (p : Payload) : Int := (p.toNat : Int)

/-- The motion input of a calibrated axis: `x = min(raw, 1023)` (R143). -/
def domainClamp (raw : Int) : Int := min raw 1023

/-- The level of EYES and FOG: `p > 0` on the raw payload (R183, R184, D30). -/
def binLevel (p : Payload) : Bool := decide (0 < p.toNat)

/-- The level of ENVELOPE: `p > ENV_LEVEL_THRESHOLD` on the raw payload (R182). -/
def envLevel (cfg : Config) (p : Payload) : Bool := decide (cfg.envLevelThreshold.toNat < p.toNat)

/-- The axis an opcode value names (R11, R49). -/
def axisOfOpcode : Nat → Option Axis
  | 1 => some .bodyTilt
  | 2 => some .wings
  | 3 => some .headTilt
  | 4 => some .headRotate
  | 5 => some .beak
  | _ => none

/-- The opcode value that identifies an axis (R11). -/
def opcodeOfAxis : Axis → Nat
  | .bodyTilt => 1
  | .wings => 2
  | .headTilt => 3
  | .headRotate => 4
  | .beak => 5

end Sys2Proof.Machine
end

