-- ==== Sys2Proof/Machine/ConfigCheck.lean ====
section
/-! DEFINITION. The well-formedness of a configuration: the checks of R10, each under its name. -/

namespace Sys2Proof.Machine

/-- Every calibrated range: each CAL_RANGE that is not NONE, and the two head-tilt sub-ranges (R10). -/
def calRanges (cfg : Config) : List CalRange :=
  cfg.calBodyTilt.toList ++ cfg.calWings.toList ++ cfg.calHeadRotate.toList ++ cfg.calBeak.toList
    ++ [cfg.htLo, cfg.htHi]

/-- A value lies in the native scale (R10). -/
def inNative (cfg : Config) (v : Int) : Bool :=
  decide (min cfg.nativeMin cfg.nativeMax ≤ v) && decide (v ≤ max cfg.nativeMin cfg.nativeMax)

/-- One check of R10. -/
def cfgCheckHolds (cfg : Config) : CfgCheck → Bool
  | .nativeSpan => decide (cfg.nativeMin ≠ cfg.nativeMax)
  | .rangeInNative => (calRanges cfg).all fun r => inNative cfg r.r0 && inNative cfg r.r1
  | .htDomain =>
    decide (1 ≤ cfg.htLoDmax) && decide (cfg.htLoDmax ≤ 1023)
      && decide (0 ≤ cfg.htHiDmin) && decide (cfg.htHiDmin ≤ 1022)
  | .envAxes => (axisOfOpcode cfg.envAxisA).isSome && (axisOfOpcode cfg.envAxisB).isSome
  | .periods =>
    decide (1 ≤ cfg.aggPeriod) && decide (1 ≤ cfg.envPeriod) && decide (1 ≤ cfg.cycleWrap)
      && decide (cfg.cycleWrap % Nat.lcm cfg.aggPeriod cfg.envPeriod = 0)
      && decide (cfg.cycleWrap ≤ 2 ^ cfg.cycleBits)
  | .hist => decide (1 ≤ cfg.histLen)
  | .avg => decide (0 < cfg.avgFloor) && decide (cfg.avgFloor < cfg.avgCap)
  | .ref => decide (cfg.refChannel < cfg.numChannels)
  | .widths =>
    decide (1 ≤ cfg.sampleBits) && decide (cfg.sampleBits ≤ 16)
      && decide (1 ≤ cfg.durationBits) && decide (1 ≤ cfg.scoreBits)
  | .emu => decide (1 ≤ cfg.emuIndexSpan) && decide (1 ≤ cfg.emuMainMax)
  | .datapath =>
    ((calRanges cfg).all fun r => decide (1023 * (r.r1 - r.r0).natAbs < 2 ^ 31))
      && decide ((cfg.nativeMax - cfg.nativeMin).natAbs * (cfg.outMax - cfg.outMin).natAbs < 2 ^ 31)

/-- The checks in the order R10 lists them. -/
def allCfgChecks : List CfgCheck :=
  [.nativeSpan, .rangeInNative, .htDomain, .envAxes, .periods, .hist, .avg, .ref, .widths, .emu, .datapath]

/-- The first check of R10 that a configuration fails (R264; log 24). -/
def failedCheck (cfg : Config) : Option CfgCheck :=
  allCfgChecks.find? fun c => !cfgCheckHolds cfg c

/-- A well-formed configuration: every check of R10 holds. -/
abbrev CfgWF (cfg : Config) : Prop := failedCheck cfg = none

end Sys2Proof.Machine
end

