-- ==== Sys2Proof/Machine/Flags.lean ====
section
/-! DEFINITION. The flag computations: the cadence conditions (R181, R221), the counter and average updates
(R212, R213), the gradient and the deviation (R214, R215), and the classification that writes `active`
and `dur` (R216 to R218). -/

namespace Sys2Proof.Machine

/-- A cadence cycle: `c mod period = 0` (R18, R181, R221). -/
def onCadence (c period : Nat) : Bool := decide (c % period = 0)

/-- `AVG_UPDATE(n, avg, v)` (R212): by default `fdiv(n * avg + v, n + 1)`. A build that replaces it
supplies a free value, held in the SAMPLE_BITS-bit register (R39, D10, U5; log 15). -/
def avgUpdate (cfg : Config) (n avg v : Nat) : Nat :=
  match cfg.avgRule with
  | .floorDivision => fdiv (n * avg + v) (n + 1)
  | .replaced => Config.avgReplaced n avg v % 2 ^ cfg.sampleBits

/-- `COUNT_NEXT(n)` (R213). -/
def countNext (cfg : Config) (n : Nat) : Nat :=
  if n + 1 = cfg.avgCap then cfg.avgFloor else n + 1

/-- The gradient, signed: the new sample less the oldest retained one (R214). -/
def gradient (v oldest : Nat) : Int := (v : Int) - (oldest : Int)

/-- The deviation `|v - avg|` (R215). -/
def deviation (v avg : Nat) : Nat := ((v : Int) - (avg : Int)).natAbs

/-- The four cases of detection (R216 to R218). -/
inductive Detection where
  /-- deviating, inactive: a new event (R216) -/
  | opens
  /-- deviating, active: the event goes on (R216) -/
  | counts
  /-- not deviating, active, gradient small: the event ends (R217) -/
  | closes
  /-- every other combination (R218) -/
  | holds
deriving DecidableEq, Repr

/-- Detection (R216 to R218): both thresholds are strict (D14). -/
def detect (cfg : Config) (active : Bool) (dev : Nat) (grad : Int) : Detection :=
  if cfg.noiseThreshold < dev then
    if active then .counts else .opens
  else if active = true ∧ grad.natAbs < cfg.endThreshold then .closes
  else .holds

/-- What detection writes to `active` (R216 to R218). -/
def activeAfter (active : Bool) : Detection → Bool
  | .opens => true
  | .counts => active
  | .closes => false
  | .holds => active

/-- What detection writes to `dur` (R216 to R219): it saturates, and a new event overwrites it with 1. -/
def durAfter (cfg : Config) (dur : Nat) : Detection → Nat
  | .opens => 1
  | .counts => sat cfg.durationBits (dur + 1)
  | .closes => dur
  | .holds => dur

end Sys2Proof.Machine
end

