-- ==== Sys2Proof/Machine/Mapper.lean ====
section
/-! DEFINITION. The Position Mapper (42_position_mapper.md): a pure function of the axis, the payload and CFG
(R140). -/

namespace Sys2Proof.Machine

/-- `NATIVE_SINGLE`, the single-range path with `CAL_RANGE[a] = r` (R145). -/
def nativeSingle (r : CalRange) (raw : Int) : Int :=
  clamp (interp (domainClamp raw) 0 1023 r.r0 r.r1) r.r0 r.r1

/-- `NATIVE_HT_LO` (R147). -/
def nativeHtLo (cfg : Config) (x : Int) : Int :=
  clamp (interp x 0 cfg.htLoDmax cfg.htLo.r0 cfg.htLo.r1) cfg.htLo.r0 cfg.htLo.r1

/-- `NATIVE_HT_HI` (R148). -/
def nativeHtHi (cfg : Config) (x : Int) : Int :=
  clamp (interp x cfg.htHiDmin 1023 cfg.htHi.r0 cfg.htHi.r1) cfg.htHi.r0 cfg.htHi.r1

/-- `NATIVE_HT`, the split of HEAD_TILT at its pivot 512 (R146). -/
def nativeHt (cfg : Config) (raw : Int) : Int :=
  if domainClamp raw < 512 then nativeHtLo cfg (domainClamp raw)
  else nativeHtHi cfg (domainClamp raw)

/-- `NATIVE_FALLBACK`, the path of an unmapped axis: no domain clamp (R150). -/
def nativeFallback (cfg : Config) (raw : Int) : Int := clamp raw cfg.nativeMin cfg.nativeMax

/-- `RESCALE` to the normalized output scale; no clamp follows (R149). -/
def rescale (cfg : Config) (native : Int) : Int :=
  interp native cfg.nativeMin cfg.nativeMax cfg.outMin cfg.outMax

/-- The native value `MAP` rescales (R144). -/
def nativeOf (cfg : Config) (a : Axis) (raw : Int) : Int :=
  match a with
  | .headTilt => nativeHt cfg raw
  | .bodyTilt | .wings | .headRotate | .beak =>
    match cfg.calRange a with
    | none => nativeFallback cfg raw
    | some r => nativeSingle r raw

/-- `MAP(a, raw)` (R144). -/
def mapAxis (cfg : Config) (a : Axis) (p : Payload) : Int :=
  rescale cfg (nativeOf cfg a (payloadVal p))

end Sys2Proof.Machine
end

