-- ==== Sys2Proof/Syntax.lean ====
section
/-! DEFINITION. The instructions of papaguy CORE: one constructor per row of spec/opcode_table.json (R96).
Every frame carries a payload, so every instruction does (R90, R91); the ignored payloads still show in
the decoder's echo (R95, R125). -/

namespace Sys2Proof

/-- A decoded command frame (R96). -/
inductive Instr where
  /-- IDLE, opcode 0 (R174) -/
  | idle (p : Payload)
  /-- BODY_TILT, opcode 1 (R175) -/
  | bodyTilt (p : Payload)
  /-- WINGS, opcode 2 (R176) -/
  | wings (p : Payload)
  /-- HEAD_TILT, opcode 3 (R177) -/
  | headTilt (p : Payload)
  /-- HEAD_ROTATE, opcode 4 (R178) -/
  | headRotate (p : Payload)
  /-- BEAK, opcode 5 (R179) -/
  | beak (p : Payload)
  /-- ENVELOPE, opcode 17 (R180) -/
  | envelope (p : Payload)
  /-- EYES, opcode 20 (R183) -/
  | eyes (p : Payload)
  /-- FOG, opcode 23 (R184) -/
  | fog (p : Payload)
  /-- IS_ALIVE, opcode 63 (R185) -/
  | isAlive (p : Payload)
  /-- EMULATE_RADAR, opcode 101 (R186) -/
  | emulateRadar (p : Payload)
  /-- DEACTIVATE, opcode 125 (R187) -/
  | deactivate (p : Payload)
  /-- REACTIVATE, opcode 126 (R188) -/
  | reactivate (p : Payload)
  /-- RESET, opcode 127 (R189) -/
  | reset (p : Payload)
  /-- UNKNOWN, every opcode of no other row (R190) -/
  | unknown (op : Byte) (p : Payload)
deriving DecidableEq, Repr

end Sys2Proof
end

