-- ==== Sys2Proof/Machine/State.lean ====
section
/-! DEFINITION. The state of papaguy CORE (R32 to R46), the output events (R56), the reasons a step can stop,
and the state after power-on reset (R280, R281). Registers whose width is a parameter are natural numbers;
`Sys2Proof.State.Inv` (Safety.lean) states their bounds (log 12). -/

namespace Sys2Proof.Machine

/-- The output events (R56). -/
inductive Event where
  /-- `SET_POSITION(a, v)` to the actuator sink -/
  | setPosition (a : Axis) (v : Int)
  /-- `SET_LEVEL(b, l)` to the binary output sink -/
  | setLevel (b : BinOut) (l : Bool)
  /-- `ECHO(op, p)` to the observability sink -/
  | echo (op : Byte) (p : Payload)
  /-- `ALIVE_ACK`, whose content is in no source -/
  | aliveAck
  /-- `UNKNOWN_LOG(op, p)` -/
  | unknownLog (op : Byte) (p : Payload)
  /-- `REPORT(s_0, ..)`, one score per channel in channel order -/
  | report (scores : List Nat)
  /-- `RESTART_REQ` to the outer runtime -/
  | restartReq
deriving DecidableEq, Repr

/-- The sensor channel record `ch[c]` (R37). -/
structure Channel where
  /-- the history, entry 0 the oldest retained sample (R38) -/
  hist : List Nat
  /-- the running average (R39) -/
  avg : Nat
  /-- the sample counter (R40) -/
  n : Nat
  /-- a deviation event is in progress (R41) -/
  active : Bool
  /-- the duration of the current or just ended event (R42) -/
  dur : Nat
  /-- the points of the aggregation window (R43) -/
  score : Nat
deriving DecidableEq, Repr

/-- A channel right after reset (R281). -/
def Channel.atReset (cfg : Config) : Channel where
  hist := List.replicate cfg.histLen 0
  avg := 0
  n := 0
  active := false
  dur := 0
  score := 0

/-- Why the machine could stop with a fault: it cannot. The block raises no exception and never halts
(R117, R192, R250), so nothing raises a fault; safe. -/
inductive Fault where
deriving DecidableEq, Repr

/-- Why the model gives no meaning. -/
inductive Refusal where
  /-- Raised by an arm of `exec` for an instruction without a meaning; no arm does. Safe. -/
  | notModelled (mnemonic : String)
  /-- Raised by `step` before the cycle runs when CFG fails a check of R10, by the check's name
  (R264, D32). Safe: nothing is claimed of such a build. -/
  | illFormedConfig (check : CfgCheck)
deriving DecidableEq, Repr

/-- The state: the spec's record S (R32: `armed`, `emu`, `cycle`, `ch`), the parameter CFG (R36), the
transport queue (R53), the latest cycle's event list (R56), and the model's own fields. -/
structure State where
  /-- CFG, read-only to the block (R36; log 1) -/
  cfg : Config
  /-- `S.armed` (R33) -/
  armed : Bool
  /-- `S.emu` (R34) -/
  emu : Bool
  /-- `S.cycle` (R35) -/
  cycle : Nat
  /-- `ch[0..NUM_CHANNELS-1]` (R37) -/
  ch : List Channel
  /-- RX, oldest byte first (R53) -/
  rx : List Byte
  /-- the events of the cycle in progress, and between cycles of the latest one (R56; log 9) -/
  events : List Event
  /-- MODEL: the restart flag of the cycle in progress (R111, R170; log 10) -/
  restart : Bool
  /-- MODEL: what the environment supplies in the coming cycles, the head in the current one (log 4) -/
  inputs : List CycleInput
  /-- MODEL: how many cycles took a free input (log 4) -/
  freeCtr : Nat
deriving DecidableEq, Repr

/-- The state at power-on under a configuration (R280, R281). -/
def State.powerOn (cfg : Config) : State where
  cfg := cfg
  armed := true
  emu := false
  cycle := 0
  ch := List.replicate cfg.numChannels (Channel.atReset cfg)
  rx := []
  events := []
  restart := false
  inputs := []
  freeCtr := 0

/-- The state right after power-on reset (R281). DESIGN CHOICE: under EX, which is normative for no build
(D1; log 2). -/
def State.reset : State := State.powerOn Config.ex

end Sys2Proof.Machine
end

