-- ==== Sys2Proof/Machine/Ops.lean ====
section
/-! DEFINITION. The shared operations over the state: emitting events (R56), reading the input ports (R53 to
R57), the channel file (R37), the armed gate (R171), the motion and binary effects (R172, R173), and
RESET_STATE (R281, R282), the one transfer that resembles a trap (R254). The block has no memory, no register
file and no exceptions (R30, R50, R250), so there is nothing else to share. -/

namespace Sys2Proof.Machine

/-- `Emit(E)` for each event of a list, in order (R15, R56). -/
def State.emit (es : List Event) (s : State) : State := { s with events := s.events ++ es }

/-- What the environment supplies in the current cycle: the head of the script, and a free value where
nothing is scripted (log 4). -/
def State.input (s : State) : CycleInput :=
  match s.inputs with
  | i :: _ => i
  | [] => Config.freeInput s.freeCtr

/-- `In.sample[c]`, an unsigned SAMPLE_BITS-bit value (R54; log 5). -/
def State.sampleAt (s : State) (c : Nat) : Nat :=
  s.input.samples.getD c 0 % 2 ^ s.cfg.sampleBits

/-- One bit of the attachment port (R55). -/
def attachedBit (b : Attached) : Axis → Bool
  | .bodyTilt => b.bodyTilt
  | .wings => b.wings
  | .headTilt => b.headTilt
  | .headRotate => b.headRotate
  | .beak => b.beak

/-- `In.attached[a]` (R55). -/
def State.attachedAt (s : State) (a : Axis) : Bool := attachedBit s.input.attached a

/-- A draw in the ranges of R57. A draw that already lies in them is itself (log 5). -/
def drawInRange (cfg : Config) (d : Draw) : Draw where
  idx := d.idx % cfg.emuIndexSpan
  main := if 1 ≤ d.main ∧ d.main ≤ cfg.emuMainMax then d.main else 1 + d.main % cfg.emuMainMax
  left := d.left % (cfg.emuNeighborMax + 1)
  right := d.right % (cfg.emuNeighborMax + 1)

/-- `In.draw` (R57). -/
def State.draw (s : State) : Draw := drawInRange s.cfg s.input.draw

/-- `ch[c]`; an index the channel file does not reach reads as a channel at reset (log 6). -/
def State.chan (s : State) (c : Nat) : Channel := s.ch.getD c (Channel.atReset s.cfg)

/-- The armed gate (R171): while disarmed nothing is written and no event is emitted. -/
def State.whenArmed (f : State → State) (s : State) : State := if s.armed then f s else s

/-- MOTION, the motion effect (R172): nothing where the axis is not attached. -/
def State.motion (a : Axis) (p : Payload) (s : State) : State :=
  s.emit (if s.attachedAt a then [.setPosition a (mapAxis s.cfg a p)] else [])

/-- MOTION of an axis named by its opcode value (R11): a value that names none fails WF_ENV_AXES, and no
cycle runs then (R10; log 24). -/
def State.motionByOpcode (op : Nat) (p : Payload) (s : State) : State :=
  match axisOfOpcode op with
  | some a => s.motion a p
  | none => s

/-- BINARY, the binary-output effect (R173): nothing where the output is not bound. -/
def State.binary (b : BinOut) (l : Bool) (s : State) : State :=
  s.emit (if s.cfg.binBound b then [.setLevel b l] else [])

/-- RESET_STATE (R281): every field of S takes its reset value. The environment chose whether the bytes
still queued are all retained or all discarded (R282). CFG and the sinks are not written (R36, R283). -/
def State.resetState (s : State) : State :=
  { s with
    armed := true
    emu := false
    cycle := 0
    ch := List.replicate s.cfg.numChannels (Channel.atReset s.cfg)
    rx := if s.input.keepRx then s.rx else [] }

end Sys2Proof.Machine
end

