-- ==== Sys2Proof/Machine/Aggregate.lean ====
section
/-! DEFINITION. AGGREGATE, phase 2 of a cadence cycle (R221 to R229). -/

namespace Sys2Proof.Machine

/-- The real fold of one channel: a closed event's duration goes to the score (R222). -/
def Channel.fold (cfg : Config) (c : Channel) : Channel :=
  if c.active = false ∧ 0 < c.dur then { c with score := sat cfg.scoreBits (c.score + c.dur), dur := 0 }
  else c

/-- One emulated addition to a score (R225). -/
def Channel.award (cfg : Config) (points : Nat) (c : Channel) : Channel :=
  { c with score := sat cfg.scoreBits (c.score + points) }

/-- The clear of one channel's score (R224). -/
def Channel.clearScore (c : Channel) : Channel := { c with score := 0 }

/-- The emulated scores of a draw, the neighbours guarded (R225, R227). -/
def emulatedScores (cfg : Config) (d : Draw) (ch : List Channel) : List Channel :=
  if d.idx < cfg.numChannels then
    let main := ch.modify d.idx (Channel.award cfg d.main)
    let left := if 1 ≤ d.idx then main.modify (d.idx - 1) (Channel.award cfg d.left) else main
    if d.idx + 1 < cfg.numChannels then left.modify (d.idx + 1) (Channel.award cfg d.right) else left
  else ch

/-- The aggregation is emulated: the flag is set and the build permits it (R222, R225, R228). -/
def State.emulates (s : State) : Bool := s.emu && s.cfg.emulationPermitted

/-- The channels after the fold (R222) or the emulation that replaces it (R225). -/
def State.scored (s : State) : List Channel :=
  if s.emulates then emulatedScores s.cfg s.draw s.ch else s.ch.map (Channel.fold s.cfg)

/-- `found`: a channel scored (R222), or the drawn index is a channel (R225). -/
def State.found (s : State) : Bool :=
  if s.emulates then decide (s.draw.idx < s.cfg.numChannels)
  else s.scored.any fun c => decide (0 < c.score)

/-- AGGREGATE (R222 to R225): fold or emulate, report if something was found, then clear every score and the
emulation flag together. -/
def State.aggregate (s : State) : State :=
  { s.emit (if s.found then [.report (s.scored.map Channel.score)] else []) with
    ch := s.scored.map Channel.clearScore
    emu := false }

/-- Phase 2: AGGREGATE on a cadence cycle only (R111, R221). -/
def State.aggregatePhase (s : State) : State :=
  if onCadence s.cycle s.cfg.aggPeriod then s.aggregate else s

end Sys2Proof.Machine
end

