-- ==== Sys2Proof/Machine/Admin.lean ====
section
/-! DEFINITION. The administrative commands (R174, R185 to R189) and UNKNOWN (R190). -/

namespace Sys2Proof.Machine

/-- IDLE, opcode 0: a no-op, armed or not (R174). -/
def execIdle (_ : Payload) (s : State) : Host.Outcome State Fault Refusal := .next s

/-- IS_ALIVE, opcode 63: a fixed acknowledgment (R185). -/
def execIsAlive (_ : Payload) (s : State) : Host.Outcome State Fault Refusal :=
  .next (s.whenArmed (State.emit [.aliveAck]))

/-- EMULATE_RADAR, opcode 101: the flag is set, not toggled (R186, D17). -/
def execEmulateRadar (_ : Payload) (s : State) : Host.Outcome State Fault Refusal :=
  .next (s.whenArmed fun t => { t with emu := true })

/-- DEACTIVATE, opcode 125, before the armed gate (R170, R187). -/
def execDeactivate (_ : Payload) (s : State) : Host.Outcome State Fault Refusal :=
  .next { s with armed := false }

/-- REACTIVATE, opcode 126, before the armed gate (R170, R188). -/
def execReactivate (_ : Payload) (s : State) : Host.Outcome State Fault Refusal :=
  .next { s with armed := true }

/-- RESET, opcode 127, before the armed gate: it requests the restart, which the cycle performs in its
phase 5 (R170, R189). -/
def execReset (_ : Payload) (s : State) : Host.Outcome State Fault Refusal :=
  .next { s.emit [.restartReq] with restart := true }

/-- UNKNOWN, every other opcode: logged when armed, never fatal (R190). -/
def execUnknown (op : Byte) (p : Payload) (s : State) : Host.Outcome State Fault Refusal :=
  .next (s.whenArmed (State.emit [.unknownLog op p]))

end Sys2Proof.Machine
end

