-- ==== Sys2Proof/Machine/Binary.lean ====
section
/-! DEFINITION. The binary-output commands (R173, R183, R184). -/

namespace Sys2Proof.Machine

/-- EYES, opcode 20 (R183). -/
def execEyes (p : Payload) (s : State) : Host.Outcome State Fault Refusal :=
  .next (s.whenArmed (State.binary .eyes (binLevel p)))

/-- FOG, opcode 23 (R184). -/
def execFog (p : Payload) (s : State) : Host.Outcome State Fault Refusal :=
  .next (s.whenArmed (State.binary .fog (binLevel p)))

end Sys2Proof.Machine
end

