-- ==== Sys2Proof/Machine/Envelope.lean ====
section
/-! DEFINITION. The composite command ENVELOPE (R180 to R182). -/

namespace Sys2Proof.Machine

/-- ENV_AXIS_B is driven on cadence cycles only (R181). `S.cycle` still holds the cycle's number c, since
it is written in phase 5 (R118). -/
def State.envelopeAxisB (p : Payload) (s : State) : State :=
  if onCadence s.cycle s.cfg.envPeriod then s.motionByOpcode s.cfg.envAxisB p else s

/-- ENVELOPE, the three effects in the order A, B, output (R180, D22). -/
def State.envelope (p : Payload) (s : State) : State :=
  ((s.motionByOpcode s.cfg.envAxisA p).envelopeAxisB p).binary s.cfg.envOutput (envLevel s.cfg p)

/-- ENVELOPE, opcode 17 (R180). -/
def execEnvelope (p : Payload) (s : State) : Host.Outcome State Fault Refusal :=
  .next (s.whenArmed (State.envelope p))

end Sys2Proof.Machine
end

