-- ==== Sys2Proof/Machine/Motion.lean ====
section
/-! DEFINITION. The motion commands (R172, R175 to R179). -/

namespace Sys2Proof.Machine

/-- BODY_TILT, opcode 1 (R175). -/
def execBodyTilt (p : Payload) (s : State) : Host.Outcome State Fault Refusal :=
  .next (s.whenArmed (State.motion .bodyTilt p))

/-- WINGS, opcode 2 (R176). -/
def execWings (p : Payload) (s : State) : Host.Outcome State Fault Refusal :=
  .next (s.whenArmed (State.motion .wings p))

/-- HEAD_TILT, opcode 3 (R177). -/
def execHeadTilt (p : Payload) (s : State) : Host.Outcome State Fault Refusal :=
  .next (s.whenArmed (State.motion .headTilt p))

/-- HEAD_ROTATE, opcode 4 (R178). -/
def execHeadRotate (p : Payload) (s : State) : Host.Outcome State Fault Refusal :=
  .next (s.whenArmed (State.motion .headRotate p))

/-- BEAK, opcode 5 (R179). -/
def execBeak (p : Payload) (s : State) : Host.Outcome State Fault Refusal :=
  .next (s.whenArmed (State.motion .beak p))

end Sys2Proof.Machine
end

