-- ==== Sys2Proof/Machine/Dispatch.lean ====
section
/-! DEFINITION. DISPATCH, the dispatch multiplexer of phase 4 (R170): one arm per instruction. -/

namespace Sys2Proof.Machine

def exec (i : Instr) (s : State) : Host.Outcome State Fault Refusal :=
  match i with
  | .idle p => Sys2Proof.Machine.execIdle p s
  | .bodyTilt p => Sys2Proof.Machine.execBodyTilt p s
  | .wings p => Sys2Proof.Machine.execWings p s
  | .headTilt p => Sys2Proof.Machine.execHeadTilt p s
  | .headRotate p => Sys2Proof.Machine.execHeadRotate p s
  | .beak p => Sys2Proof.Machine.execBeak p s
  | .envelope p => Sys2Proof.Machine.execEnvelope p s
  | .eyes p => Sys2Proof.Machine.execEyes p s
  | .fog p => Sys2Proof.Machine.execFog p s
  | .isAlive p => Sys2Proof.Machine.execIsAlive p s
  | .emulateRadar p => Sys2Proof.Machine.execEmulateRadar p s
  | .deactivate p => Sys2Proof.Machine.execDeactivate p s
  | .reactivate p => Sys2Proof.Machine.execReactivate p s
  | .reset p => Sys2Proof.Machine.execReset p s
  | .unknown op p => Sys2Proof.Machine.execUnknown op p s

end Sys2Proof.Machine
end

