-- ==== Sys2Proof/Machine/Sensor.lean ====
section
/-! DEFINITION. SENSE, phase 1 of a cycle (R210 to R220). -/

namespace Sys2Proof.Machine

/-- HIST_PUSH: the oldest sample leaves, the new one becomes the newest entry (R211). -/
def histPush (hist : List Nat) (v : Nat) : List Nat := hist.drop 1 ++ [v]

/-- The average after a sample (R212). -/
def Channel.avgAfter (cfg : Config) (c : Channel) (v : Nat) : Nat := avgUpdate cfg c.n c.avg v

/-- The gradient of a sample, read after the push (R214). -/
def Channel.gradOf (c : Channel) (v : Nat) : Int := gradient v ((histPush c.hist v).headD 0)

/-- The deviation of a sample from the average already updated with it (R215, D13). -/
def Channel.devOf (cfg : Config) (c : Channel) (v : Nat) : Nat := deviation v (c.avgAfter cfg v)

/-- Which case of detection a sample falls in (R216 to R218). -/
def Channel.detection (cfg : Config) (c : Channel) (v : Nat) : Detection :=
  detect cfg c.active (c.devOf cfg v) (c.gradOf v)

/-- SENSE on one channel record (R210). -/
def Channel.sense (cfg : Config) (v : Nat) (c : Channel) : Channel where
  hist := histPush c.hist v
  avg := c.avgAfter cfg v
  n := countNext cfg c.n
  active := activeAfter c.active (c.detection cfg v)
  dur := durAfter cfg c.dur (c.detection cfg v)
  score := c.score

/-- `SENSE(k, v)` (R210). -/
def State.sense (k v : Nat) (s : State) : State :=
  { s with ch := s.ch.modify k (Channel.sense s.cfg v) }

/-- The INDICATOR output, right after SENSE of the reference channel (R111, R220). -/
def State.indicate (k : Nat) (s : State) : State :=
  s.emit (if k = s.cfg.refChannel ∧ s.cfg.binBound .indicator = true
    then [.setLevel .indicator (s.chan k).active] else [])

/-- Phase 1 for one channel: a channel without an input is never sensed (R44, R210). -/
def State.senseChannel (s : State) (k : Nat) : State :=
  if s.cfg.inputBoundAt k then (s.sense k (s.sampleAt k)).indicate k else s

/-- Phase 1: every channel in ascending order (R111). -/
def State.sensePhase (s : State) : State :=
  (List.range s.cfg.numChannels).foldl State.senseChannel s

end Sys2Proof.Machine
end

