-- ==== Sys2Proof/WellFormed.lean ====
section
/-! DEFINITION. Which instructions are well formed: an UNKNOWN carries an opcode that no other row of the
opcode map has (R96, R97). Every payload is legal (R99). -/

namespace Sys2Proof

/-- The 14 known opcode values, in the order of the opcode map (R96). -/
def knownOpcodes : List Byte := [0, 1, 2, 3, 4, 5, 17, 20, 23, 63, 101, 125, 126, 127]

/-- The check of an instruction (R96, R97, R99). -/
def Instr.wf : Instr → Bool
  | .idle _ => true
  | .bodyTilt _ => true
  | .wings _ => true
  | .headTilt _ => true
  | .headRotate _ => true
  | .beak _ => true
  | .envelope _ => true
  | .eyes _ => true
  | .fog _ => true
  | .isAlive _ => true
  | .emulateRadar _ => true
  | .deactivate _ => true
  | .reactivate _ => true
  | .reset _ => true
  | .unknown op _ => !knownOpcodes.contains op

/-- An instruction some frame encodes. -/
abbrev Instr.WellFormed (i : Instr) : Prop := i.wf = true

end Sys2Proof
end

