-- ==== Sys2Proof/Decode.lean ====
section
/-! DEFINITION. The F3B frame (R90 to R94), the opcode map (R96), decoding and encoding. Decoding is total
over frames (R99); a byte string that is not yet a frame is rejected by name. -/

namespace Sys2Proof

/-- A decoded frame `Some(op, p)`: the opcode byte and the payload (R91). -/
structure Frame where
  op : Byte
  p : Payload
deriving DecidableEq, Repr

/-- Payload assembly, big-endian: `p = b1 * 256 + b2` (R93, R70). -/
def payloadOf (b1 b2 : Byte) : Payload := BitVec.ofNat 16 (b1.toNat * 256 + b2.toNat)

/-- Byte 1 of a frame, payload bits 15..8 (R91). -/
def payloadHi (p : Payload) : Byte := BitVec.ofNat 8 (p.toNat / 256)

/-- Byte 2 of a frame, payload bits 7..0 (R91). -/
def payloadLo (p : Payload) : Byte := BitVec.ofNat 8 (p.toNat % 256)

/-- The frame of three bytes in arrival order (R91, R93, R94). -/
def frameOf (b0 b1 b2 : Byte) : Frame := ⟨b0, payloadOf b1 b2⟩

/-- A row of the opcode map: an opcode value and the instruction a frame with it is (R96). -/
structure OpcodeRow where
  op : Byte
  instr : Payload → Instr

/-- The opcode map (R96), in its own order. -/
def opcodeMap : List OpcodeRow := [
  ⟨0, .idle⟩,
  ⟨1, .bodyTilt⟩,
  ⟨2, .wings⟩,
  ⟨3, .headTilt⟩,
  ⟨4, .headRotate⟩,
  ⟨5, .beak⟩,
  ⟨17, .envelope⟩,
  ⟨20, .eyes⟩,
  ⟨23, .fog⟩,
  ⟨63, .isAlive⟩,
  ⟨101, .emulateRadar⟩,
  ⟨125, .deactivate⟩,
  ⟨126, .reactivate⟩,
  ⟨127, .reset⟩]

/-- The instruction of a frame: the exact row of its opcode, and UNKNOWN for every other value (R97). The
payload never changes which instruction a frame is (R96). -/
def Frame.instr (f : Frame) : Instr :=
  match opcodeMap.find? fun row => row.op == f.op with
  | some row => row.instr f.p
  | none => .unknown f.op f.p

/-- Why a byte string is no frame. -/
inductive DecodeReject where
  /-- fewer than 3 bytes: the frame is not complete (R90, R122) -/
  | incompleteFrame (got : Nat)
deriving DecidableEq, Repr

/-- The instruction at the head of a byte string, and the bytes after it (R72, R121). -/
def decode : List Byte → Except DecodeReject (Instr × List Byte)
  | b0 :: b1 :: b2 :: rest => .ok ((frameOf b0 b1 b2).instr, rest)
  | [b0, b1] => .error (.incompleteFrame [b0, b1].length)
  | [b0] => .error (.incompleteFrame [b0].length)
  | [] => .error (.incompleteFrame 0)

/-- The frame of an instruction: its opcode (R96) and its payload. -/
def Instr.frame : Instr → Frame
  | .idle p => ⟨0, p⟩
  | .bodyTilt p => ⟨1, p⟩
  | .wings p => ⟨2, p⟩
  | .headTilt p => ⟨3, p⟩
  | .headRotate p => ⟨4, p⟩
  | .beak p => ⟨5, p⟩
  | .envelope p => ⟨17, p⟩
  | .eyes p => ⟨20, p⟩
  | .fog p => ⟨23, p⟩
  | .isAlive p => ⟨63, p⟩
  | .emulateRadar p => ⟨101, p⟩
  | .deactivate p => ⟨125, p⟩
  | .reactivate p => ⟨126, p⟩
  | .reset p => ⟨127, p⟩
  | .unknown op p => ⟨op, p⟩

/-- The three bytes of an instruction, in arrival order (R91, R102). -/
def encode (i : Instr) : List Byte :=
  [i.frame.op, payloadHi i.frame.p, payloadLo i.frame.p]

/-- The bytes, in arrival order, of the 24-bit frame word `W = b0 ++ b1 ++ b2` (R92): b0 is W[23:16].
Bits above the `nbits` that the table numbers are 0 (log 13). -/
def tableBytes (nbits w : Nat) : List Byte :=
  let v := w % 2 ^ nbits
  [BitVec.ofNat 8 (v / 65536), BitVec.ofNat 8 (v / 256), BitVec.ofNat 8 v]

/-- The instruction the decoder reads from a word numbered as spec/opcode_table.json numbers it (R92). -/
def decodeTableWord (nbits w : Nat) : Option Instr :=
  match decode (tableBytes nbits w) with
  | .ok (i, _) => some i
  | .error _ => none

end Sys2Proof
end

