-- ==== Sys2Proof/Machine/Transport.lean ====
section
/-! DEFINITION. DECODE, phase 3 of a cycle: the transport queue, the tail wait, the underrun and the diagnostic
echo (R120 to R126). -/

namespace Sys2Proof.Machine

/-- The tail wait (R122), `need` bytes short of a frame: a queued byte is taken at once, else the next byte
that arrives. It answers the bytes taken and what is left in RX. It ends with fewer than three bytes only
when the queue is empty and no further byte arrives before the expiry (C16; log 7). -/
def tailWait : (need : Nat) → (buf queued arriving : List Byte) → List Byte × List Byte
  | 0, buf, queued, arriving => (buf, queued ++ arriving)
  | need + 1, buf, b :: queued, arriving => tailWait need (buf ++ [b]) queued arriving
  | need + 1, buf, [], b :: arriving => tailWait need (buf ++ [b]) [] arriving
  | _ + 1, buf, [], [] => (buf, [])

/-- The frame of the bytes a tail wait took: a complete one (R121), or what the underrun makes of 1 or 2
bytes (R123). -/
def frameOfTail (u : Underrun) : List Byte → Option Frame
  | [b0, b1, b2] => some (frameOf b0 b1 b2)
  | [b0, b1] =>
    match u with
    | .drop => none
    | .fill _ lo => some (frameOf b0 b1 lo)
  | [b0] =>
    match u with
    | .drop => none
    | .fill hi lo => some (frameOf b0 hi lo)
  | _ => none

/-- DECODE on the queue: the frame, and the bytes left (R120 to R123). A whole queued frame is taken without
a wait, and then nothing arrives (R81, R121). -/
def takeFrame (i : CycleInput) : List Byte → Option Frame × List Byte
  | [] => (none, [])
  | b0 :: b1 :: b2 :: rest => (some (frameOf b0 b1 b2), rest)
  | [b0, b1] =>
    ((frameOfTail i.underrun (tailWait 2 [b0] [b1] i.wait).1), (tailWait 2 [b0] [b1] i.wait).2)
  | [b0] =>
    ((frameOfTail i.underrun (tailWait 2 [b0] [] i.wait).1), (tailWait 2 [b0] [] i.wait).2)

/-- ECHO_STAGE: every decoded frame but IDLE and ENVELOPE (R125). -/
def echoOf (f : Frame) : List Event :=
  if f.op ≠ 0 ∧ f.op ≠ 17 then [.echo f.op f.p] else []

/-- The frame this cycle's DECODE returns. -/
def State.decodedFrame (s : State) : Option Frame := (takeFrame s.input s.rx).1

/-- Phase 3: DECODE takes its bytes and emits the echo of the frame, if there is one (R111, R121, R125). -/
def State.decodePhase (s : State) : State :=
  { s.emit ((s.decodedFrame.map echoOf).getD []) with rx := (takeFrame s.input s.rx).2 }

end Sys2Proof.Machine
end

