-- ==== Sys2Proof/Machine/Cycle.lean ====
section
/-! DEFINITION. The phases of CYCLE around the dispatch (R111). -/

namespace Sys2Proof.Machine

/-- The start of a cycle: the bytes that arrived since the last one are in RX (R53, R104), the event list is
empty (R56) and `restart <- 0` (R111). -/
def State.beginCycle (s : State) : State :=
  { s with rx := s.rx ++ s.input.arrivals, events := [], restart := false }

/-- Phases 1 to 3: sense, aggregate, decode (R111, R113). -/
def State.beforeDispatch (s : State) : State :=
  s.beginCycle.sensePhase.aggregatePhase.decodePhase

/-- The instruction this cycle dispatches, if its DECODE returns a frame (R111, R112). -/
def State.cycleInstr (s : State) : Option Instr :=
  s.beginCycle.sensePhase.aggregatePhase.decodedFrame.map Frame.instr

/-- Phase 4: DISPATCH of the decoded frame, if there is one (R111, R112). -/
def dispatchPhase (i : Option Instr) (s : State) : Host.Outcome State Fault Refusal :=
  match i with
  | some i => exec i s
  | none => .next s

/-- Phase 5: RESET_STATE on a restart, else the counter advances (R111, R114). -/
def State.advance (s : State) : State :=
  if s.restart then s.resetState else { s with cycle := (s.cycle + 1) % s.cfg.cycleWrap }

/-- The cycle's input is spent, and the restart flag with it (log 4, log 10). -/
def State.endCycle (s : State) : State :=
  { s with
    restart := false
    inputs := s.inputs.tail
    freeCtr := if s.inputs.isEmpty then s.freeCtr + 1 else s.freeCtr }

/-- What follows the dispatch: phase 5 and the end of the cycle. -/
def State.afterDispatch (s : State) : State := s.advance.endCycle

end Sys2Proof.Machine
end

