-- ==== Sys2Proof/Machine/Step.lean ====
section
/-! DEFINITION. The step: one CYCLE (R110, R111), under a well-formed configuration (R264). -/

namespace Sys2Proof.Machine

/-- One cycle. An ill-formed CFG is refused by the name of its first failed check before any cycle runs
(R10, R264). -/
def step (s : State) : Host.Outcome State Fault Refusal :=
  match failedCheck s.cfg with
  | some c => .refused (.illFormedConfig c)
  | none =>
    match dispatchPhase s.cycleInstr s.beforeDispatch with
    | .next t => .next t.afterDispatch
    | .fault r => .fault r
    | .refused r => .refused r

/-- The frame of a table word at the head of RX, where the next DECODE takes its frame (R72, R92; log 14). -/
def State.withFetchWord (s : State) (nbits w : Nat) : State :=
  { s with rx := tableBytes nbits w ++ s.rx.drop 3 }

end Sys2Proof.Machine
end

