-- ==== Sys2Proof/Safety.lean ====
section
/-! DEFINITION. What counts as a safe state and a safe cycle of papaguy CORE: the bounds of the registers whose
widths are parameters (R32 to R45), and the legal contents of each output event (R56). -/

namespace Sys2Proof.Machine

/-- A channel record between cycles: every register within its width (R38 to R42), the score cleared (R45), a
running event of at least one cycle (R216), and a channel without an input still at reset (R44). -/
abbrev Channel.Inv (cfg : Config) (bound : Bool) (c : Channel) : Prop :=
  c.hist.length = cfg.histLen ∧ (∀ x ∈ c.hist, x < 2 ^ cfg.sampleBits)
    ∧ c.avg < 2 ^ cfg.sampleBits ∧ c.n < cfg.avgCap ∧ c.dur < 2 ^ cfg.durationBits ∧ c.score = 0
    ∧ (c.active = true → 1 ≤ c.dur) ∧ (bound = false → c = Channel.atReset cfg)

/-- The state between cycles: CFG well formed (R10), the counter below its wrap (R35), one record per channel
(R37), every record within its bounds, and no restart pending (R111). -/
abbrev State.Inv (s : State) : Prop :=
  CfgWF s.cfg ∧ s.cycle < s.cfg.cycleWrap ∧ s.ch.length = s.cfg.numChannels
    ∧ (∀ k < s.cfg.numChannels, Channel.Inv s.cfg (s.cfg.inputBoundAt k) (s.chan k))
    ∧ s.restart = false

/-- An event the block may emit (R56): a normalized position in the output scale (R153), a level of a bound
output (R173), an echo of an opcode that is echoed (R125), a log of an unknown opcode (R190), and a report
of one SCORE_BITS-bit score per channel (R229). -/
abbrev Event.Legal (cfg : Config) : Event → Prop
  | .setPosition _ v => min cfg.outMin cfg.outMax ≤ v ∧ v ≤ max cfg.outMin cfg.outMax
  | .setLevel b _ => cfg.binBound b = true
  | .echo op _ => op ≠ 0 ∧ op ≠ 17
  | .aliveAck => True
  | .unknownLog op _ => op ∉ knownOpcodes
  | .report scores => scores.length = cfg.numChannels ∧ ∀ x ∈ scores, x < 2 ^ cfg.scoreBits
  | .restartReq => True

/-- An event that is a call to an actuator or a binary output (R193, R260). -/
def Event.isSinkCall : Event → Bool
  | .setPosition _ _ => true
  | .setLevel _ _ => true
  | .echo _ _ => false
  | .aliveAck => false
  | .unknownLog _ _ => false
  | .report _ => false
  | .restartReq => false

/-- A report of an aggregation (R223). -/
def Event.isReport : Event → Bool
  | .report _ => true
  | .setPosition _ _ => false
  | .setLevel _ _ => false
  | .echo _ _ => false
  | .aliveAck => false
  | .unknownLog _ _ => false
  | .restartReq => false

/-- A diagnostic echo (R125). -/
def Event.isEcho : Event → Bool
  | .echo _ _ => true
  | .setPosition _ _ => false
  | .setLevel _ _ => false
  | .aliveAck => false
  | .unknownLog _ _ => false
  | .report _ => false
  | .restartReq => false

/-- A value a 32-bit signed datapath holds (R152). -/
def fits32 (v : Int) : Prop := -2147483648 ≤ v ∧ v ≤ 2147483647

/-- The product and the quotient of one interpolation fit a 32-bit signed datapath (R152). -/
def interpFits32 (x d0 d1 r0 r1 : Int) : Prop :=
  fits32 ((x - d0) * (r1 - r0)) ∧ fits32 (tdiv ((x - d0) * (r1 - r0)) (d1 - d0))

end Sys2Proof.Machine
end

