-- ==== Sys2Proof/Certificates/Slice0/Obligations.lean ====
section
/-! DEFINITION. The statements for the provers. Each docstring names the rule of spec/ it formalises, or says that
it is derived and from what. Arithmetic is written out with the library's own operations where the rule
gives a formula, so that a statement does not repeat the definition it is about. -/

open Sys2Proof Sys2Proof.Machine

/-! ## Encoding and decoding -/

/-- Decode and encode agree (derived from R91, R93, R94, R96): the bytes of a well-formed instruction decode to it,
with every operand at every value, and leave the bytes after them. -/
def Obligations.DecodeOfEncodeIsIdentity : Prop :=
  ∀ (i : Instr) (rest : List Byte), i.WellFormed → decode (encode i ++ rest) = .ok (i, rest)

/-- Derived from R99 (a derived rule of the spec): any 3 bytes decode to exactly one well-formed instruction, and
no bit of them is lost. -/
def Obligations.EveryFrameDecodesToOneInstruction : Prop :=
  ∀ (b0 b1 b2 : Byte) (rest : List Byte),
    ∃ i : Instr, decode (b0 :: b1 :: b2 :: rest) = .ok (i, rest) ∧ i.WellFormed ∧ encode i = [b0, b1, b2]

/-- The opcode map of R96 on words written out from the table, payload 0xABCD (derived; R92, R96, R97). -/
def Obligations.TableWordsDecode : Prop :=
  decodeTableWord 24 0x00ABCD = some (.idle 0xABCD)
    ∧ decodeTableWord 24 0x01ABCD = some (.bodyTilt 0xABCD)
    ∧ decodeTableWord 24 0x03ABCD = some (.headTilt 0xABCD)
    ∧ decodeTableWord 24 0x11ABCD = some (.envelope 0xABCD)
    ∧ decodeTableWord 24 0x17ABCD = some (.fog 0xABCD)
    ∧ decodeTableWord 24 0x65ABCD = some (.emulateRadar 0xABCD)
    ∧ decodeTableWord 24 0x7FABCD = some (.reset 0xABCD)
    ∧ decodeTableWord 24 0x06ABCD = some (.unknown 6 0xABCD)

/-! ## The command decoder -/

/-- R120: with an empty transport DECODE returns none, consumes nothing and emits nothing. -/
def Obligations.EmptyTransportDecodesNothing : Prop :=
  ∀ s : State, s.rx = [] → s.decodedFrame = none ∧ s.decodePhase = s

/-- R121, with the echo of R125: with 3 bytes queued DECODE takes exactly those, big-endian, echoes every frame but
IDLE and ENVELOPE whatever the mode, and changes nothing else. -/
def Obligations.CompleteFrameIsDecodedAndEchoed : Prop :=
  ∀ (s : State) (b0 b1 b2 : Byte) (rest : List Byte), s.rx = b0 :: b1 :: b2 :: rest →
    ∃ p : Payload, p.toNat = b1.toNat * 256 + b2.toNat ∧ s.decodedFrame = some ⟨b0, p⟩
      ∧ s.decodePhase = { s with
          rx := rest
          events := s.events ++ (if b0 = 0 ∨ b0 = 17 then [] else [.echo b0 p]) }

/-- R122 (derived; the script of arrivals is the model's, log 7): a tail wait that receives the missing bytes ends
as if they had been queued. -/
def Obligations.TailWaitCompletesWithArrivals : Prop :=
  ∀ (s : State) (b0 b1 b2 : Byte) (rest : List Byte),
    1 ≤ s.rx.length → s.rx.length < 3 → s.rx ++ s.input.wait = b0 :: b1 :: b2 :: rest →
      ∃ p : Payload, p.toNat = b1.toNat * 256 + b2.toNat ∧ s.decodedFrame = some ⟨b0, p⟩
        ∧ s.decodePhase.rx = rest

/-- R123 (derived; the outcome is the current input's, log 8): a tail wait that expires consumes the bytes it took.
On DROP there is no frame and no echo. On FILL the opcode is the real byte 0, a payload byte that was taken is
real, and the missing ones are the drawn ones. -/
def Obligations.UnderrunDropsOrFills : Prop :=
  ∀ s : State, 1 ≤ s.rx.length → (s.rx ++ s.input.wait).length < 3 →
    s.decodePhase.rx = []
    ∧ (s.input.underrun = .drop → s.decodedFrame = none ∧ s.decodePhase.events = s.events)
    ∧ (∀ hi lo, s.input.underrun = .fill hi lo →
        ∃ (b0 b1 : Byte) (p : Payload), s.rx.head? = some b0
          ∧ b1 = ((s.rx ++ s.input.wait)[1]?).getD hi
          ∧ p.toNat = b1.toNat * 256 + lo.toNat ∧ s.decodedFrame = some ⟨b0, p⟩)

/-- R125: in both modes, a cycle whose frame is neither IDLE nor ENVELOPE echoes it once, raw payload and all,
after the events of phases 1 and 2 and before every event of its dispatch; no other event is an echo. -/
def Obligations.CycleEchoesItsFrame : Prop :=
  ∀ s t : State, step s = .next t →
    ∃ before after : List Event,
      t.events = before
        ++ (match s.cycleInstr with
            | some i => if i.frame.op = 0 ∨ i.frame.op = 17 then [] else [.echo i.frame.op i.frame.p]
            | none => [])
        ++ after
      ∧ (∀ e ∈ before, e.isReport = true ∨ ∃ l, e = .setLevel .indicator l)
      ∧ (∀ e ∈ after, e.isReport = false ∧ e.isEcho = false)

/-! ## The cycle -/

/-- A step runs the decoded instruction (derived from R111, R112, R121 to R123): under a well-formed CFG, whichever
way the frame of the cycle came about (queued whole, completed in the tail wait, or filled), `step` is `exec` of
its instruction, after phases 1 to 3 and before phase 5; without a frame nothing is dispatched. The instruction is
that of the frame which DECODE returns from the bytes queued at the start of the cycle, and where those are a whole
frame it is what `decode` reads, and exactly its bytes are taken. -/
def Obligations.StepRunsDecodedInstr : Prop :=
  ∀ s : State, CfgWF s.cfg →
    (∀ i, s.cycleInstr = some i →
      step s = (match exec i s.beforeDispatch with
        | .next t => .next t.afterDispatch
        | .fault r => .fault r
        | .refused r => .refused r))
    ∧ (s.cycleInstr = none → step s = .next s.beforeDispatch.afterDispatch)
    ∧ s.cycleInstr =
        (State.decodedFrame { s with rx := s.rx ++ s.input.arrivals }).map Frame.instr
    ∧ s.beforeDispatch.rx = (State.decodePhase { s with rx := s.rx ++ s.input.arrivals }).rx
    ∧ (∀ (bytes rest : List Byte) (i : Instr),
        s.rx ++ s.input.arrivals = bytes → decode bytes = .ok (i, rest) → s.cycleInstr = some i ∧ s.beforeDispatch.rx = rest)

/-- Derived from R264 (the spec's own decision D32, log 24): a step on an ill-formed CFG is refused by the name of
a failed check of R10, whatever the state. -/
def Obligations.IllFormedConfigIsRefusedByName : Prop :=
  ∀ (s : State) (c : CfgCheck), cfgCheckHolds s.cfg c = false →
    ∃ c' : CfgCheck, cfgCheckHolds s.cfg c' = false ∧ step s = .refused (.illFormedConfig c')

/-- The block never halts (derived from R117, R192): under a well-formed CFG every cycle completes, and another can
follow. -/
def Obligations.EveryCycleCompletes : Prop :=
  ∀ s : State, CfgWF s.cfg → ∃ t : State, step s = .next t ∧ CfgWF t.cfg

/-- R36: no command, input or reset writes any field of CFG. -/
def Obligations.NoCycleWritesTheConfig : Prop :=
  ∀ s t : State, step s = .next t → t.cfg = s.cfg

/-- Derived from R114 (the spec's own decision D16, log 18), and R181, R221 across the wrap: the counter advances
by one modulo CYCLE_WRAP, or restarts at 0, and from a counter value below CYCLE_WRAP the advance skips no phase of
either cadence. -/
def Obligations.CycleCounterAdvances : Prop :=
  ∀ s t : State, step s = .next t →
    ((∃ p, s.cycleInstr = some (.reset p)) → t.cycle = 0)
    ∧ ((∀ p, s.cycleInstr ≠ some (.reset p)) →
        t.cycle = (s.cycle + 1) % s.cfg.cycleWrap
        ∧ (s.cycle < s.cfg.cycleWrap →
            t.cycle % s.cfg.aggPeriod = (s.cycle + 1) % s.cfg.aggPeriod
            ∧ t.cycle % s.cfg.envPeriod = (s.cycle + 1) % s.cfg.envPeriod))

/-- The phase order shows in the events (derived from R80, R111, R113): at most one indicator level, then at most
one report, then at most one echo, then the dispatch's events, among which there is no report and no echo. The
place of the indicator level is the spec's own decision D25 (log 19), and one total order across the sinks its
decision D3 (log 20, unsafe). -/
def Obligations.EventsFollowThePhaseOrder : Prop :=
  ∀ s t : State, step s = .next t →
    ∃ sense report echo dispatch : List Event,
      t.events = sense ++ report ++ echo ++ dispatch
      ∧ sense.length ≤ 1 ∧ (∀ e ∈ sense, ∃ l, e = .setLevel .indicator l)
      ∧ report.length ≤ 1 ∧ (∀ e ∈ report, e.isReport = true)
      ∧ echo.length ≤ 1 ∧ (∀ e ∈ echo, e.isEcho = true)
      ∧ (∀ e ∈ dispatch, e.isReport = false ∧ e.isEcho = false)

/-- Derived from R113: a command cannot affect the sensing or the aggregation of its own cycle. Two states that
agree on CFG, the counter, the emulation flag, the channels, the samples and the draw, and differ in anything else
(the transport, the mode, the attachments), report the same and leave the same channels, unless one of them
restarts. -/
def Obligations.CommandsDoNotReachSensingOfTheirCycle : Prop :=
  ∀ s s' t t' : State,
    s'.cfg = s.cfg → s'.cycle = s.cycle → s'.emu = s.emu → s'.ch = s.ch →
    s'.input.samples = s.input.samples → s'.input.draw = s.input.draw →
    step s = .next t → step s' = .next t' →
      t'.events.filter Event.isReport = t.events.filter Event.isReport
      ∧ ((∀ p, s.cycleInstr ≠ some (.reset p)) → (∀ p, s'.cycleInstr ≠ some (.reset p)) → t'.ch = t.ch)

/-- The sensors reach no command (derived from R111, R171, R257): the mode and the transport after a cycle do not
depend on the channels, the counter, the emulation flag, the samples or the draw. -/
def Obligations.SensorsDoNotReachModeOrTransport : Prop :=
  ∀ s s' t t' : State,
    s'.cfg = s.cfg → s'.armed = s.armed → s'.rx = s.rx →
    s'.input.arrivals = s.input.arrivals → s'.input.wait = s.input.wait →
    s'.input.underrun = s.input.underrun → s'.input.keepRx = s.input.keepRx →
    step s = .next t → step s' = .next t' →
      s'.cycleInstr = s.cycleInstr ∧ t'.armed = t.armed ∧ t'.rx = t.rx

/-- Every step keeps the invariant of the state (derived from R10, R32 to R45, R213, R219): a well-formed CFG, the
counter below its wrap, every register of every channel within its width, every score cleared, and every channel
without an input still at reset. -/
def Obligations.StepKeepsInvariant : Prop :=
  ∀ s t : State, s.Inv → step s = .next t → t.Inv

/-- The invariant holds at power-on under every well-formed CFG, and at the model's reset state (derived; that the
reset state carries EX is the model's choice, log 2). -/
def Obligations.PowerOnMeetsInvariant : Prop :=
  (∀ cfg : Config, CfgWF cfg → (State.powerOn cfg).Inv) ∧ State.reset.Inv

/-- Every event of a cycle is legal (derived from R56, R125, R153, R173, R190, R229): positions in the output
scale, levels of bound outputs only, echoes of no IDLE and no ENVELOPE, logs of unknown opcodes only, and reports
with one SCORE_BITS-bit score for every channel. -/
def Obligations.EveryEventOfACycleIsLegal : Prop :=
  ∀ s t : State, s.Inv → step s = .next t → ∀ e ∈ t.events, e.Legal s.cfg

/-! ## The dispatcher -/

/-- Derived from R192: no dispatch can fail or halt the block: every instruction answers a next state in every
state. -/
def Obligations.EveryDispatchCompletes : Prop :=
  ∀ (i : Instr) (s : State), ∃ t : State, exec i s = .next t

/-- R171: while disarmed, every instruction but RESET, DEACTIVATE and REACTIVATE writes nothing and emits nothing.
The echo of its frame, which is no part of the dispatch, is still emitted. -/
def Obligations.DisarmedGateDropsCommands : Prop :=
  (∀ (i : Instr) (s : State), s.armed = false →
    (∀ p, i ≠ .reset p) → (∀ p, i ≠ .deactivate p) → (∀ p, i ≠ .reactivate p) → exec i s = .next s)
  ∧ (∀ (s t : State) (i : Instr), s.armed = false → step s = .next t → s.cycleInstr = some i →
      i.frame.op ≠ 0 → i.frame.op ≠ 17 → .echo i.frame.op i.frame.p ∈ t.events)

/-- The frame of every dispatch (derived from R170 to R190): whatever the instruction, CFG, the counter, the
channels, the transport and the inputs are unchanged and the events only grow. The mode changes only at DEACTIVATE
and REACTIVATE, the emulation flag only at an armed EMULATE_RADAR, and a restart is requested only by RESET. -/
def Obligations.DispatchFrame : Prop :=
  ∀ (i : Instr) (s t : State), exec i s = .next t →
    t.cfg = s.cfg ∧ t.cycle = s.cycle ∧ t.ch = s.ch ∧ t.rx = s.rx
    ∧ t.inputs = s.inputs ∧ t.freeCtr = s.freeCtr ∧ (∃ es, t.events = s.events ++ es)
    ∧ (t.armed ≠ s.armed → (∃ p, i = .deactivate p) ∨ ∃ p, i = .reactivate p)
    ∧ (t.emu ≠ s.emu → s.armed = true ∧ ∃ p, i = .emulateRadar p)
    ∧ (t.restart ≠ s.restart → ∃ p, i = .reset p)

/-- R172 with R175 to R179: a frame with opcode 1 to 5 is the motion command of its axis. Armed and with the axis
attached it makes exactly one actuator call with the mapped value; unattached or disarmed it does nothing; nothing
else changes. -/
def Obligations.MotionCommandsSetTheirAxis : Prop :=
  ∀ (p : Payload) (s : State), ∀ row ∈
      [((1 : Byte), Instr.bodyTilt p, Axis.bodyTilt, s.input.attached.bodyTilt),
       (2, Instr.wings p, Axis.wings, s.input.attached.wings),
       (3, Instr.headTilt p, Axis.headTilt, s.input.attached.headTilt),
       (4, Instr.headRotate p, Axis.headRotate, s.input.attached.headRotate),
       (5, Instr.beak p, Axis.beak, s.input.attached.beak)],
    Frame.instr ⟨row.1, p⟩ = row.2.1
    ∧ exec row.2.1 s = .next { s with
        events := s.events ++
          (if s.armed = true ∧ row.2.2.2 = true
            then [.setPosition row.2.2.1 (mapAxis s.cfg row.2.2.1 p)] else []) }

/-- Derived from R180, R181, R182 (the spec's own decision D22, log 19): an armed ENVELOPE drives axis A, on
cadence cycles axis B, then the output with the level `p > ENV_LEVEL_THRESHOLD`, each subject to its own attachment
or binding; disarmed it does nothing; nothing else changes. -/
def Obligations.EnvelopeDrivesAxesThenOutput : Prop :=
  ∀ (p : Payload) (s : State), CfgWF s.cfg →
    ∃ a b : Axis, axisOfOpcode s.cfg.envAxisA = some a ∧ axisOfOpcode s.cfg.envAxisB = some b
      ∧ exec (.envelope p) s = .next { s with
          events := s.events ++
            (if s.armed then
              (if s.attachedAt a then [.setPosition a (mapAxis s.cfg a p)] else [])
                ++ (if s.cycle % s.cfg.envPeriod = 0 ∧ s.attachedAt b = true
                    then [.setPosition b (mapAxis s.cfg b p)] else [])
                ++ (if s.cfg.binBound s.cfg.envOutput
                    then [.setLevel s.cfg.envOutput (decide (p.toNat > s.cfg.envLevelThreshold.toNat))]
                    else [])
            else []) }

/-- Derived from R183, R184 and R173 (the spec's own decisions D23 and D30, log 19): EYES and FOG, armed and with
the output bound, write the level `p > 0` of the raw payload; unbound or disarmed they do nothing; nothing else
changes. -/
def Obligations.BinaryCommandsSetTheirOutput : Prop :=
  ∀ (p : Payload) (s : State),
    exec (.eyes p) s = .next { s with
      events := s.events ++
        (if s.armed = true ∧ s.cfg.binEyes = true then [.setLevel .eyes (decide (p.toNat > 0))] else []) }
    ∧ exec (.fog p) s = .next { s with
      events := s.events ++
        (if s.armed = true ∧ s.cfg.binFog = true then [.setLevel .fog (decide (p.toNat > 0))] else []) }

/-- R174: a frame with opcode 0 is IDLE, a no-op in both modes, whatever its payload, and it is not echoed. -/
def Obligations.IdleIsANoOp : Prop :=
  ∀ (p : Payload) (s : State),
    Frame.instr ⟨0, p⟩ = .idle p ∧ echoOf ⟨0, p⟩ = [] ∧ exec (.idle p) s = .next s

/-- Derived from R185, R190 (the spec's own decision D26, log 20): an armed IS_ALIVE emits the acknowledgment and
an armed UNKNOWN its log, with no further effect; disarmed they do nothing. -/
def Obligations.AliveAndUnknownOnlyLog : Prop :=
  ∀ (op : Byte) (p : Payload) (s : State),
    exec (.isAlive p) s = .next { s with events := s.events ++ (if s.armed then [.aliveAck] else []) }
    ∧ exec (.unknown op p) s =
        .next { s with events := s.events ++ (if s.armed then [.unknownLog op p] else []) }

/-- Derived from R186 (the spec's own decision D17, log 18): EMULATE_RADAR sets the emulation flag when armed,
without toggling it; disarmed it does nothing; nothing else changes. -/
def Obligations.EmulateRadarSetsTheFlag : Prop :=
  ∀ (p : Payload) (s : State),
    exec (.emulateRadar p) s = .next { s with emu := if s.armed then true else s.emu }

/-- Derived from R187, R188 and R191: DEACTIVATE disarms and REACTIVATE arms from either mode and nothing else
changes; in the mode they lead to, they change nothing at all. -/
def Obligations.ArmingCommandsSetTheMode : Prop :=
  ∀ (p : Payload) (s : State),
    exec (.deactivate p) s = .next { s with armed := false }
    ∧ exec (.reactivate p) s = .next { s with armed := true }
    ∧ (s.armed = false → exec (.deactivate p) s = .next s)
    ∧ (s.armed = true → exec (.reactivate p) s = .next s)

/-- Derived from R189 (the spec's own decision D24, log 22), the dispatch of RESET: in either mode it emits
RESTART_REQ and requests the restart; nothing else changes before phase 5. -/
def Obligations.ResetRequestsRestart : Prop :=
  ∀ (p : Payload) (s : State),
    exec (.reset p) s = .next { s with events := s.events ++ [.restartReq], restart := true }

/-- R258: over a cycle the mode becomes disarmed at DEACTIVATE, armed at REACTIVATE and RESET, and changes at
nothing else. -/
def Obligations.ModeTransitions : Prop :=
  ∀ s t : State, step s = .next t →
    (∀ p, s.cycleInstr = some (.deactivate p) → t.armed = false)
    ∧ (∀ p, s.cycleInstr = some (.reactivate p) → t.armed = true)
    ∧ (∀ p, s.cycleInstr = some (.reset p) → t.armed = true)
    ∧ ((∀ p, s.cycleInstr ≠ some (.deactivate p)) → (∀ p, s.cycleInstr ≠ some (.reactivate p)) →
        (∀ p, s.cycleInstr ≠ some (.reset p)) → t.armed = s.armed)

/-- R193 with R220 (derived): the only actuator or output call of a cycle that starts disarmed is the indicator's.
-/
def Obligations.DisarmedCycleCallsOnlyTheIndicator : Prop :=
  ∀ s t : State, step s = .next t → s.armed = false →
    ∀ e ∈ t.events, e.isSinkCall = true → ∃ l, e = .setLevel .indicator l

/-! ## Reset -/

/-- Derived from R281 (the reset values but `armed` are the spec's own decision D12, log 3) at power-on, under
every CFG, and EX at the model's reset state (the model's choice, log 2). -/
def Obligations.PowerOnValues : Prop :=
  (∀ cfg : Config,
    (State.powerOn cfg).cfg = cfg ∧ (State.powerOn cfg).armed = true ∧ (State.powerOn cfg).emu = false
    ∧ (State.powerOn cfg).cycle = 0 ∧ (State.powerOn cfg).ch.length = cfg.numChannels
    ∧ ∀ c ∈ (State.powerOn cfg).ch, c.hist = List.replicate cfg.histLen 0 ∧ c.avg = 0 ∧ c.n = 0
        ∧ c.active = false ∧ c.dur = 0 ∧ c.score = 0)
  ∧ State.reset = State.powerOn Config.ex

/-- Derived from R281, R282 (the spec's own decisions D12 and D24, logs 3 and 22): a cycle that dispatches RESET,
in either mode, emits RESTART_REQ last and leaves every field of S as at power-on, CFG as it was, and the queued
bytes all retained or all discarded, as the environment chose. -/
def Obligations.CommandResetRestoresPowerOn : Prop :=
  ∀ (s t : State) (p : Payload), step s = .next t → s.cycleInstr = some (.reset p) →
    t.armed = true ∧ t.emu = false ∧ t.cycle = 0 ∧ t.ch = (State.powerOn s.cfg).ch ∧ t.cfg = s.cfg
    ∧ (s.input.keepRx = true → t.rx = s.beforeDispatch.rx) ∧ (s.input.keepRx = false → t.rx = [])
    ∧ t.events.getLast? = some .restartReq

/-- Derived from R284 (a derived rule of the spec): the first cycle after a reset, with `S.emu` 0 and every channel
at its reset values, emits no report. -/
def Obligations.FirstCycleAfterResetReportsNothing : Prop :=
  ∀ s t : State, s.emu = false → s.ch = (State.powerOn s.cfg).ch → step s = .next t →
    ∀ e ∈ t.events, e.isReport = false

/-! ## The position mapper -/

/-- Derived from R141, R143 to R150 (the spec's own decisions D5 to D9, log 16): the three paths of MAP written
out: the clamped interpolation of `min(p, 1023)` for a calibrated axis, the split of HEAD_TILT at 512, and the
clamped raw payload for an unmapped axis, each rescaled from the native to the output scale without a further
clamp. -/
def Obligations.MapFollowsItsPath : Prop :=
  ∀ (cfg : Config) (p : Payload), ∃ out : Int → Int,
    (∀ v, out v = cfg.outMin
      + Int.tdiv ((v - cfg.nativeMin) * (cfg.outMax - cfg.outMin)) (cfg.nativeMax - cfg.nativeMin))
    ∧ (∀ (a : Axis) (r : CalRange), a ≠ .headTilt → cfg.calRange a = some r →
        mapAxis cfg a p = out (max (min r.r0 r.r1) (min (max r.r0 r.r1)
          (r.r0 + Int.tdiv (min (p.toNat : Int) 1023 * (r.r1 - r.r0)) 1023))))
    ∧ (∀ a : Axis, a ≠ .headTilt → cfg.calRange a = none →
        mapAxis cfg a p = out (max (min cfg.nativeMin cfg.nativeMax)
          (min (max cfg.nativeMin cfg.nativeMax) (p.toNat : Int))))
    ∧ ((p.toNat < 512) →
        mapAxis cfg .headTilt p = out (max (min cfg.htLo.r0 cfg.htLo.r1) (min (max cfg.htLo.r0 cfg.htLo.r1)
          (cfg.htLo.r0 + Int.tdiv ((p.toNat : Int) * (cfg.htLo.r1 - cfg.htLo.r0)) cfg.htLoDmax))))
    ∧ ((512 ≤ p.toNat) →
        mapAxis cfg .headTilt p = out (max (min cfg.htHi.r0 cfg.htHi.r1) (min (max cfg.htHi.r0 cfg.htHi.r1)
          (cfg.htHi.r0 + Int.tdiv ((min (p.toNat : Int) 1023 - cfg.htHiDmin) * (cfg.htHi.r1 - cfg.htHi.r0))
            (1023 - cfg.htHiDmin)))))

/-- Derived from R153 (a derived rule of the spec): under a well-formed CFG every mapped value lies in the output
scale, and the native value in the axis's calibrated range, or in the selected sub-range of HEAD_TILT, or,
unmapped, in the native scale. -/
def Obligations.MappedValueIsInRange : Prop :=
  ∀ (cfg : Config) (a : Axis) (p : Payload), CfgWF cfg →
    (min cfg.outMin cfg.outMax ≤ mapAxis cfg a p ∧ mapAxis cfg a p ≤ max cfg.outMin cfg.outMax)
    ∧ (∀ r, cfg.calRange a = some r →
        min r.r0 r.r1 ≤ nativeOf cfg a (p.toNat : Int) ∧ nativeOf cfg a (p.toNat : Int) ≤ max r.r0 r.r1)
    ∧ (a = .headTilt → p.toNat < 512 →
        min cfg.htLo.r0 cfg.htLo.r1 ≤ nativeOf cfg a (p.toNat : Int)
        ∧ nativeOf cfg a (p.toNat : Int) ≤ max cfg.htLo.r0 cfg.htLo.r1)
    ∧ (a = .headTilt → 512 ≤ p.toNat →
        min cfg.htHi.r0 cfg.htHi.r1 ≤ nativeOf cfg a (p.toNat : Int)
        ∧ nativeOf cfg a (p.toNat : Int) ≤ max cfg.htHi.r0 cfg.htHi.r1)
    ∧ min cfg.nativeMin cfg.nativeMax ≤ nativeOf cfg a (p.toNat : Int)
    ∧ nativeOf cfg a (p.toNat : Int) ≤ max cfg.nativeMin cfg.nativeMax

/-- Derived from R154 (a derived rule of the spec): the native value of a calibrated single-range axis is monotone
in the payload, rising or falling as its range is declared, and so is each head-tilt sub-range. -/
def Obligations.NativeValueIsMonotone : Prop :=
  (∀ (r : CalRange) (p q : Payload), p.toNat ≤ q.toNat →
    (r.r0 ≤ r.r1 → nativeSingle r (p.toNat : Int) ≤ nativeSingle r (q.toNat : Int))
    ∧ (r.r1 < r.r0 → nativeSingle r (q.toNat : Int) ≤ nativeSingle r (p.toNat : Int)))
  ∧ (∀ (cfg : Config) (x y : Int), CfgWF cfg → x ≤ y →
    (cfg.htLo.r0 ≤ cfg.htLo.r1 → nativeHtLo cfg x ≤ nativeHtLo cfg y)
    ∧ (cfg.htLo.r1 < cfg.htLo.r0 → nativeHtLo cfg y ≤ nativeHtLo cfg x)
    ∧ (cfg.htHi.r0 ≤ cfg.htHi.r1 → nativeHtHi cfg x ≤ nativeHtHi cfg y)
    ∧ (cfg.htHi.r1 < cfg.htHi.r0 → nativeHtHi cfg y ≤ nativeHtHi cfg x))

/-- Derived from R141 and R142 (the spec's own decision D5, log 16): interpolation is exact at both ends of its
domain, and the clamp does not depend on the order of its bounds. -/
def Obligations.InterpolationEndsAreExact : Prop :=
  ∀ d0 d1 r0 r1 : Int, d0 ≠ d1 →
    interp d0 d0 d1 r0 r1 = r0 ∧ interp d1 d0 d1 r0 r1 = r1
    ∧ ∀ v : Int, clamp v r0 r1 = clamp v r1 r0

/-- The corner cases of R157 (derived): HEAD_TILT reaches HT_LO_R0 at payload 0 and HT_HI_R1 at every payload of at
least 1023, exactly. -/
def Obligations.HeadTiltReachesItsExtremes : Prop :=
  ∀ (cfg : Config) (p : Payload), CfgWF cfg →
    (p.toNat = 0 → nativeOf cfg .headTilt (p.toNat : Int) = cfg.htLo.r0)
    ∧ (1023 ≤ p.toNat → nativeOf cfg .headTilt (p.toNat : Int) = cfg.htHi.r1)

/-- Derived from R152, on the formulas of R141 to R150 (the spec's own decisions D5 to D9, log 16): under a
well-formed CFG the product and the quotient of every interpolation of MAP fit in a 32-bit signed integer, for
every axis and payload. -/
def Obligations.MapperFitsA32BitDatapath : Prop :=
  ∀ (cfg : Config) (a : Axis) (p : Payload), CfgWF cfg →
    (∀ r, cfg.calRange a = some r → interpFits32 (min (p.toNat : Int) 1023) 0 1023 r.r0 r.r1)
    ∧ (a = .headTilt → p.toNat < 512 →
        interpFits32 (p.toNat : Int) 0 cfg.htLoDmax cfg.htLo.r0 cfg.htLo.r1)
    ∧ (a = .headTilt → 512 ≤ p.toNat →
        interpFits32 (min (p.toNat : Int) 1023) cfg.htHiDmin 1023 cfg.htHi.r0 cfg.htHi.r1)
    ∧ interpFits32 (nativeOf cfg a (p.toNat : Int)) cfg.nativeMin cfg.nativeMax cfg.outMin cfg.outMax

/-! ## The sensor engine -/

/-- Derived from R210 to R214 (the spec's own decisions D10, D11 and D13, log 17), over a cycle: in a cycle that
does not restart, a bound channel pushes its sample, updates its average by floor division (the default AVG_UPDATE)
with the old counter, and advances its counter, which drops from AVG_CAP - 1 to AVG_FLOOR. -/
def Obligations.SenseUpdatesHistoryAverageAndCounter : Prop :=
  ∀ (s t : State) (k : Nat), s.Inv → step s = .next t → (∀ p, s.cycleInstr ≠ some (.reset p)) →
    k < s.cfg.numChannels → s.cfg.inputBoundAt k = true →
      (t.chan k).hist = (s.chan k).hist.drop 1 ++ [s.sampleAt k]
      ∧ (s.cfg.avgRule = .floorDivision →
          (t.chan k).avg = ((s.chan k).n * (s.chan k).avg + s.sampleAt k) / ((s.chan k).n + 1))
      ∧ ((s.chan k).n + 1 = s.cfg.avgCap → (t.chan k).n = s.cfg.avgFloor)
      ∧ ((s.chan k).n + 1 ≠ s.cfg.avgCap → (t.chan k).n = (s.chan k).n + 1)

/-- Derived from R214 to R219 (the spec's own decisions D13 to D15, log 17): what a sample does to `active` and
`dur`, with the deviation from the average already updated and the gradient against the oldest sample retained
after the push. -/
def Obligations.DetectionOpensCountsClosesHolds : Prop :=
  ∀ (cfg : Config) (c : Channel) (v : Nat),
    ∃ (dev : Nat) (grad : Int),
      dev = Int.natAbs ((v : Int) - ((c.sense cfg v).avg : Int))
      ∧ grad = (v : Int) - (((c.sense cfg v).hist.headD 0 : Nat) : Int)
      ∧ (cfg.noiseThreshold < dev → c.active = false →
          (c.sense cfg v).active = true ∧ (c.sense cfg v).dur = 1)
      ∧ (cfg.noiseThreshold < dev → c.active = true →
          (c.sense cfg v).active = true
          ∧ (c.sense cfg v).dur = min (c.dur + 1) (2 ^ cfg.durationBits - 1))
      ∧ (dev ≤ cfg.noiseThreshold → c.active = true → grad.natAbs < cfg.endThreshold →
          (c.sense cfg v).active = false ∧ (c.sense cfg v).dur = c.dur)
      ∧ (dev ≤ cfg.noiseThreshold → (c.active = false ∨ cfg.endThreshold ≤ grad.natAbs) →
          (c.sense cfg v).active = c.active ∧ (c.sense cfg v).dur = c.dur)

/-- The corner cases of R212 (derived): the default average lies between the old average and the sample, and is the
sample itself at counter 0. -/
def Obligations.AverageStaysBetween : Prop :=
  ∀ (cfg : Config) (c : Channel) (v : Nat), cfg.avgRule = .floorDivision →
    min c.avg v ≤ (c.sense cfg v).avg ∧ (c.sense cfg v).avg ≤ max c.avg v
    ∧ (c.n = 0 → (c.sense cfg v).avg = v)

/-- The corner cases of R213 (derived): the counter never reaches AVG_CAP, which is the spec's own decision D11
(log 17), and once it is at least AVG_FLOOR it stays so. -/
def Obligations.CounterStaysBelowCap : Prop :=
  ∀ (cfg : Config) (c : Channel) (v : Nat), CfgWF cfg → c.n < cfg.avgCap →
    (c.sense cfg v).n < cfg.avgCap ∧ (cfg.avgFloor ≤ c.n → cfg.avgFloor ≤ (c.sense cfg v).n)

/-- Derived from R220 (the spec's own decision D25, log 19; first across the sinks by its decision D3, log 20):
whatever the mode, the indicator level is the first event of every cycle in which the reference channel has an
input and the output is bound, and it is the reference channel's `active` after its SENSE. Where the reference
channel has no input, or the output is not bound, phase 1 emits nothing, and an indicator level in the cycle is
that of an ENVELOPE whose output is the indicator. -/
def Obligations.IndicatorShowsTheReferenceChannel : Prop :=
  ∀ s t : State, s.Inv → step s = .next t →
    (s.cfg.inputBoundAt s.cfg.refChannel = true → s.cfg.binIndicator = true →
      t.events.head? = some (.setLevel .indicator
        ((s.chan s.cfg.refChannel).sense s.cfg (s.sampleAt s.cfg.refChannel)).active))
    ∧ ((s.cfg.inputBoundAt s.cfg.refChannel = false ∨ s.cfg.binIndicator = false) →
        s.beginCycle.sensePhase.events = []
        ∧ ∀ l, .setLevel .indicator l ∈ t.events →
            ∃ p, s.cycleInstr = some (.envelope p) ∧ s.cfg.envOutput = .indicator)

/-- R230 over runs (derived; the average and the deviation are the spec's own decisions D10 and D13, log 17, and
the values at power-on and at a restart its decision D12, log 3): under the default average, in every run from
power-on of any length, with any frames and any other inputs, a bound channel whose samples all have the value `v`
never becomes active and never has a duration, and its average is `v` once it has taken a sample since the last
reset. -/
def Obligations.ConstantChannelNeverBecomesActive : Prop :=
  ∀ (cfg : Config) (rx : List Byte) (ins : List CycleInput) (k v m : Nat) (t : State),
    CfgWF cfg → cfg.avgRule = .floorDivision → k < cfg.numChannels → cfg.inputBoundAt k = true →
    (∀ i ∈ ins, i.samples.getD k 0 % 2 ^ cfg.sampleBits = v) → m ≤ ins.length →
    core.run m { State.powerOn cfg with rx := rx, inputs := ins } = .next t →
      (t.chan k).active = false ∧ (t.chan k).dur = 0 ∧ ((t.chan k).n = 0 ∨ (t.chan k).avg = v)

/-- The rounding bias of R234 (derived): under the default average, with the counter at least AVG_FLOOR, the gap of
a held input at least AVG_FLOOR above the average never falls below AVG_FLOOR. -/
def Obligations.RisingGapStaysAboveFloor : Prop :=
  ∀ (cfg : Config) (c : Channel) (v : Nat), cfg.avgRule = .floorDivision →
    cfg.avgFloor ≤ c.n → c.avg + cfg.avgFloor ≤ v → (c.sense cfg v).avg + cfg.avgFloor ≤ v

/-! ## Aggregation -/

/-- Derived from R221 (the spec's own decision D16, log 18): a report is emitted only in a cycle whose counter is a
multiple of AGG_PERIOD, and at most one a cycle. -/
def Obligations.ReportsOnlyOnCadence : Prop :=
  ∀ s t : State, step s = .next t →
    (t.events.filter Event.isReport).length ≤ 1
    ∧ ((∃ e ∈ t.events, e.isReport = true) → s.cycle % s.cfg.aggPeriod = 0)

/-- Derived from R222, R223, R224 (saturation is the spec's own decision D15, log 17): the real fold. Every closed
channel with a duration has it added to its score, saturating, and cleared; an active channel keeps its own. If any
score is positive the scores are reported in channel order. Then every score and the emulation flag are cleared,
and nothing else changes. -/
def Obligations.RealAggregationFoldsReportsAndClears : Prop :=
  ∀ s : State, (s.emu = false ∨ s.cfg.emulationPermitted = false) →
    ∃ scores : List Nat,
      scores = s.ch.map (fun c => if c.active = false ∧ 0 < c.dur
        then min (c.score + c.dur) (2 ^ s.cfg.scoreBits - 1) else c.score)
      ∧ s.aggregate = { s with
          ch := s.ch.map (fun c =>
            { c with dur := if c.active = false ∧ 0 < c.dur then 0 else c.dur, score := 0 })
          emu := false
          events := s.events ++ (if ∃ x ∈ scores, 0 < x then [.report scores] else []) }

/-- R225, R227, R233 with R57 (derived; that the emulated case replaces the fold, keeps every duration and reports
exactly on a valid index is the spec's own decision D18, log 18, unsafe; reading an arbitrary draw into the ranges
of R57 is the model's, log 5): with the scores cleared and one record per channel, an emulated aggregation reports
exactly when the drawn index is a channel, with the main score there and the neighbour scores beside it, every
other channel 0. It leaves every channel as it was, durations included, and clears the flag. -/
def Obligations.EmulatedAggregationReportsTheDraw : Prop :=
  ∀ s : State, s.emu = true → s.cfg.emulationPermitted = true → s.ch.length = s.cfg.numChannels →
    (∀ c ∈ s.ch, c.score = 0) → 1 ≤ s.cfg.emuIndexSpan → 1 ≤ s.cfg.emuMainMax →
    ∃ d : Draw, d.idx < s.cfg.emuIndexSpan ∧ 1 ≤ d.main ∧ d.main ≤ s.cfg.emuMainMax
      ∧ d.left ≤ s.cfg.emuNeighborMax ∧ d.right ≤ s.cfg.emuNeighborMax
      ∧ (s.input.draw.idx < s.cfg.emuIndexSpan → 1 ≤ s.input.draw.main →
          s.input.draw.main ≤ s.cfg.emuMainMax → s.input.draw.left ≤ s.cfg.emuNeighborMax →
          s.input.draw.right ≤ s.cfg.emuNeighborMax → d = s.input.draw)
      ∧ s.aggregate = { s with
          emu := false
          events := s.events ++ (if d.idx < s.cfg.numChannels then
            [.report ((List.range s.cfg.numChannels).map fun k =>
              min (if k = d.idx then d.main else if k + 1 = d.idx then d.left
                else if k = d.idx + 1 then d.right else 0) (2 ^ s.cfg.scoreBits - 1))]
            else []) }

/-- R46 in its corrected form (derived from R217, R222): right after a cycle whose aggregation was real, every
duration that is not zero belongs to an event still in progress. -/
def Obligations.OnlyOpenEventsSurviveARealAggregation : Prop :=
  ∀ s t : State, s.Inv → step s = .next t → s.cycle % s.cfg.aggPeriod = 0 →
    (s.emu = false ∨ s.cfg.emulationPermitted = false) →
      ∀ k < s.cfg.numChannels, 0 < (t.chan k).dur → (t.chan k).active = true

/-- Derived from R34, R186, R224 and R286 (the spec's own decisions D17 and D18, log 18): over a cycle the
emulation flag becomes 1 at an armed EMULATE_RADAR, even in an aggregating cycle; else a restart and every
aggregation clear it; else it is kept. -/
def Obligations.EmulationFlagIsSetAndCleared : Prop :=
  ∀ s t : State, step s = .next t →
    (∀ p, s.cycleInstr = some (.emulateRadar p) → s.armed = true → t.emu = true)
    ∧ (∀ p, s.cycleInstr = some (.reset p) → t.emu = false)
    ∧ ((s.armed = false ∨ ∀ p, s.cycleInstr ≠ some (.emulateRadar p)) →
        (∀ p, s.cycleInstr ≠ some (.reset p)) →
        t.emu = if s.cycle % s.cfg.aggPeriod = 0 then false else s.emu)

/-! ## What a cycle does to every channel, and what it reports -/

/-- Derived from R210, R216 to R218 and R222, R233 (the spec's own decisions D13 to D15 and D18, logs 17 and 18):
in a cycle that does not restart, every bound channel's `active` is the one its SENSE leaves, and its duration the
one its SENSE leaves, or 0 where a real aggregation folds it, the channel being closed. An emulated aggregation
keeps every duration. -/
def Obligations.SenseUpdatesActiveAndDuration : Prop :=
  ∀ (s t : State) (k : Nat), s.Inv → step s = .next t → (∀ p, s.cycleInstr ≠ some (.reset p)) →
    k < s.cfg.numChannels → s.cfg.inputBoundAt k = true →
      (t.chan k).active = ((s.chan k).sense s.cfg (s.sampleAt k)).active
      ∧ (t.chan k).dur =
          if s.cycle % s.cfg.aggPeriod = 0 ∧ (s.emu = false ∨ s.cfg.emulationPermitted = false)
              ∧ ((s.chan k).sense s.cfg (s.sampleAt k)).active = false
          then 0 else ((s.chan k).sense s.cfg (s.sampleAt k)).dur

/-- Derived from R221 ("exactly when"), R222, R223 and R225 over a cycle (the spec's own decisions D15, D16 and
D18, logs 17 and 18; the reading of the draw is the model's, log 5). In a cadence cycle with a real aggregation the
reports are exactly the one of the saturated durations of the channels closed after SENSE, in channel order, if one
of these is positive. In a cadence cycle with an emulated one they are exactly the one of the drawn scores, if the
drawn index is a channel. In every other cycle there is none. -/
def Obligations.CadenceCyclesReportWhatTheyFind : Prop :=
  ∀ s t : State, s.Inv → step s = .next t →
    (s.cycle % s.cfg.aggPeriod = 0 → (s.emu = false ∨ s.cfg.emulationPermitted = false) →
      ∃ scores : List Nat,
        scores = ((List.range s.cfg.numChannels).map fun k =>
          if s.cfg.inputBoundAt k = true then (s.chan k).sense s.cfg (s.sampleAt k) else s.chan k).map
            (fun c => if c.active = false ∧ 0 < c.dur then min c.dur (2 ^ s.cfg.scoreBits - 1) else 0)
        ∧ t.events.filter Event.isReport = if ∃ x ∈ scores, 0 < x then [.report scores] else [])
    ∧ (s.cycle % s.cfg.aggPeriod = 0 → s.emu = true → s.cfg.emulationPermitted = true →
      ∃ d : Draw, d.idx < s.cfg.emuIndexSpan ∧ 1 ≤ d.main ∧ d.main ≤ s.cfg.emuMainMax
        ∧ d.left ≤ s.cfg.emuNeighborMax ∧ d.right ≤ s.cfg.emuNeighborMax
        ∧ (s.input.draw.idx < s.cfg.emuIndexSpan → 1 ≤ s.input.draw.main →
            s.input.draw.main ≤ s.cfg.emuMainMax → s.input.draw.left ≤ s.cfg.emuNeighborMax →
            s.input.draw.right ≤ s.cfg.emuNeighborMax → d = s.input.draw)
        ∧ t.events.filter Event.isReport = if d.idx < s.cfg.numChannels then
            [.report ((List.range s.cfg.numChannels).map fun k =>
              min (if k = d.idx then d.main else if k + 1 = d.idx then d.left
                else if k = d.idx + 1 then d.right else 0) (2 ^ s.cfg.scoreBits - 1))]
            else [])
    ∧ (s.cycle % s.cfg.aggPeriod ≠ 0 → t.events.filter Event.isReport = [])

/-- R230 as an invariant (derived; the average and the deviation are the spec's own decisions D10 and D13, log 17,
and the values of a restart its decision D12, log 3): under the default average, whatever the frame, every step in
which a bound channel's sample is `v` keeps "the channel is inactive, its duration is 0, and its average is `v`
once it has taken a sample". -/
def Obligations.ConstantSampleKeepsChannelInactive : Prop :=
  ∀ (s t : State) (k v : Nat), s.Inv → s.cfg.avgRule = .floorDivision → k < s.cfg.numChannels →
    s.cfg.inputBoundAt k = true → s.sampleAt k = v →
    (s.chan k).active = false → (s.chan k).dur = 0 → ((s.chan k).n = 0 ∨ (s.chan k).avg = v) →
    step s = .next t →
      (t.chan k).active = false ∧ (t.chan k).dur = 0 ∧ ((t.chan k).n = 0 ∨ (t.chan k).avg = v)
end

