-- ==== Sys2Proof/Laws/Channel.lean ====
section
/-! SUPPORT. One channel record under a sample and under an aggregation: fields, bounds and cases (R210 to R225). -/

namespace Sys2Proof.Machine

theorem sat_lt (bits v : Nat) : sat bits v < 2 ^ bits := by
  have := Nat.two_pow_pos bits
  unfold sat
  omega

theorem sat_of_lt {bits v : Nat} (h : v < 2 ^ bits) : sat bits v = v := by
  unfold sat
  omega

@[simp] theorem sat_zero (bits : Nat) : sat bits 0 = 0 := by simp [sat]

/-- With at least one bit, a saturating sum of something positive is positive. -/
theorem sat_pos {bits v : Nat} (hb : 1 ≤ bits) (hv : 0 < v) : 0 < sat bits v := by
  have : 2 ^ 1 ≤ 2 ^ bits := Nat.pow_le_pow_right (by omega) hb
  unfold sat
  omega

/-! The fields of a channel after a sample. -/

@[simp] theorem Channel.sense_hist (cfg : Config) (v : Nat) (c : Channel) :
    (c.sense cfg v).hist = c.hist.drop 1 ++ [v] := rfl
@[simp] theorem Channel.sense_avg (cfg : Config) (v : Nat) (c : Channel) :
    (c.sense cfg v).avg = avgUpdate cfg c.n c.avg v := rfl
@[simp] theorem Channel.sense_n (cfg : Config) (v : Nat) (c : Channel) :
    (c.sense cfg v).n = countNext cfg c.n := rfl
@[simp] theorem Channel.sense_active (cfg : Config) (v : Nat) (c : Channel) :
    (c.sense cfg v).active = activeAfter c.active (c.detection cfg v) := rfl
@[simp] theorem Channel.sense_dur (cfg : Config) (v : Nat) (c : Channel) :
    (c.sense cfg v).dur = durAfter cfg c.dur (c.detection cfg v) := rfl
@[simp] theorem Channel.sense_score (cfg : Config) (v : Nat) (c : Channel) :
    (c.sense cfg v).score = c.score := rfl

theorem avgUpdate_floor {cfg : Config} (h : cfg.avgRule = .floorDivision) (n avg v : Nat) :
    avgUpdate cfg n avg v = (n * avg + v) / (n + 1) := by
  simp [avgUpdate, h, fdiv]

/-- The default average lies between the old average and the sample (R212). -/
theorem floorAverage_between (n avg v : Nat) :
    min avg v ≤ (n * avg + v) / (n + 1) ∧ (n * avg + v) / (n + 1) ≤ max avg v := by
  have hn : 0 < n + 1 := Nat.succ_pos n
  refine ⟨(Nat.le_div_iff_mul_le hn).mpr ?_, ?_⟩
  · have h1 : min avg v * n ≤ avg * n := Nat.mul_le_mul_right n (min_le_left avg v)
    have h2 := min_le_right avg v
    nlinarith
  · refine Nat.lt_succ_iff.mp ((Nat.div_lt_iff_lt_mul hn).mpr ?_)
    have h1 : avg * n ≤ max avg v * n := Nat.mul_le_mul_right n (le_max_left avg v)
    have h2 := le_max_right avg v
    nlinarith

/-- The average register keeps its width under either AVG_UPDATE (R39, R212). -/
theorem avgUpdate_lt {cfg : Config} {avg v : Nat} (ha : avg < 2 ^ cfg.sampleBits)
    (hv : v < 2 ^ cfg.sampleBits) (n : Nat) : avgUpdate cfg n avg v < 2 ^ cfg.sampleBits := by
  unfold avgUpdate
  split
  · have := (floorAverage_between n avg v).2
    simp only [fdiv]
    omega
  · exact Nat.mod_lt _ (Nat.two_pow_pos _)

/-- The counter never reaches the cap (R213). -/
theorem countNext_lt {cfg : Config} {n : Nat} (hf : cfg.avgFloor < cfg.avgCap) (hn : n < cfg.avgCap) :
    countNext cfg n < cfg.avgCap := by
  unfold countNext
  split <;> omega

/-- The four cases of detection, with the conditions of each (R216 to R218). -/
theorem detect_cases (cfg : Config) (active : Bool) (dev : Nat) (grad : Int) :
    (cfg.noiseThreshold < dev ∧ active = false ∧ detect cfg active dev grad = .opens)
    ∨ (cfg.noiseThreshold < dev ∧ active = true ∧ detect cfg active dev grad = .counts)
    ∨ (dev ≤ cfg.noiseThreshold ∧ active = true ∧ grad.natAbs < cfg.endThreshold
        ∧ detect cfg active dev grad = .closes)
    ∨ (dev ≤ cfg.noiseThreshold ∧ (active = false ∨ cfg.endThreshold ≤ grad.natAbs)
        ∧ detect cfg active dev grad = .holds) := by
  unfold detect
  by_cases h1 : cfg.noiseThreshold < dev
  · cases active <;> simp [h1]
  · have h2 : dev ≤ cfg.noiseThreshold := by omega
    by_cases h3 : grad.natAbs < cfg.endThreshold
    · cases active <;> simp [h1, h2, h3]
    · have h4 : cfg.endThreshold ≤ grad.natAbs := by omega
      cases active <;> simp [h1, h2, h3, h4]

/-! One channel under an aggregation. -/

@[simp] theorem Channel.fold_active (cfg : Config) (c : Channel) : (c.fold cfg).active = c.active := by
  unfold Channel.fold; split <;> rfl
@[simp] theorem Channel.fold_hist (cfg : Config) (c : Channel) : (c.fold cfg).hist = c.hist := by
  unfold Channel.fold; split <;> rfl
@[simp] theorem Channel.fold_avg (cfg : Config) (c : Channel) : (c.fold cfg).avg = c.avg := by
  unfold Channel.fold; split <;> rfl
@[simp] theorem Channel.fold_n (cfg : Config) (c : Channel) : (c.fold cfg).n = c.n := by
  unfold Channel.fold; split <;> rfl

/-- The fold clears the duration of a closed channel and keeps that of an active one (R222). -/
theorem Channel.fold_dur (cfg : Config) (c : Channel) :
    (c.fold cfg).dur = if c.active = false ∧ 0 < c.dur then 0 else c.dur := by
  unfold Channel.fold; split <;> rfl

/-- The fold adds the duration of a closed channel to its score, saturating (R222). -/
theorem Channel.fold_score (cfg : Config) (c : Channel) :
    (c.fold cfg).score =
      if c.active = false ∧ 0 < c.dur then sat cfg.scoreBits (c.score + c.dur) else c.score := by
  unfold Channel.fold; split <;> rfl

theorem Channel.clearScore_eq (c : Channel) : c.clearScore = { c with score := 0 } := rfl

/-- The clear undoes an emulated addition: nothing of it stays in the channel (R224, R233). -/
@[simp] theorem Channel.clearScore_award (cfg : Config) (points : Nat) (c : Channel) :
    (c.award cfg points).clearScore = c.clearScore := rfl

/-- A channel whose score is cleared is unchanged by the clear. -/
theorem Channel.clearScore_of_zero {c : Channel} (h : c.score = 0) : c.clearScore = c := by
  cases c
  simp_all [Channel.clearScore]

theorem map_clearScore_modify (cfg : Config) (points i : Nat) (ch : List Channel) :
    (ch.modify i (Channel.award cfg points)).map Channel.clearScore = ch.map Channel.clearScore := by
  apply List.ext_getElem?
  intro k
  simp only [List.getElem?_map, List.getElem?_modify]
  cases ch[k]? <;> simp
  split <;> simp

/-- After the clear, an emulated aggregation has touched no channel (R225, R233). -/
theorem map_clearScore_emulated (cfg : Config) (d : Draw) (ch : List Channel) :
    (emulatedScores cfg d ch).map Channel.clearScore = ch.map Channel.clearScore := by
  unfold emulatedScores
  split_ifs <;> simp [map_clearScore_modify]

@[simp] theorem emulatedScores_length (cfg : Config) (d : Draw) (ch : List Channel) :
    (emulatedScores cfg d ch).length = ch.length := by
  unfold emulatedScores
  split_ifs <;> simp

/-- The scores after one emulated addition. -/
theorem modify_award_score (cfg : Config) (points i k : Nat) (ch : List Channel) :
    ((ch.modify i (Channel.award cfg points))[k]?).map Channel.score =
      if i = k then (ch[k]?).map fun c => sat cfg.scoreBits (c.score + points)
      else (ch[k]?).map Channel.score := by
  rw [List.getElem?_modify]
  cases ch[k]? <;> split <;> simp [Channel.award]

/-- From cleared scores an emulated aggregation gives the drawn channel its main score, its neighbours theirs,
and no other channel any (R225, R227). -/
theorem emulatedScores_score {cfg : Config} {d : Draw} {ch : List Channel} {k : Nat}
    (hd : d.idx < cfg.numChannels) (hl : ch.length = cfg.numChannels) (hk : k < ch.length)
    (hz : ∀ c ∈ ch, c.score = 0) :
    ((emulatedScores cfg d ch)[k]?).map Channel.score =
      some (sat cfg.scoreBits (if k = d.idx then d.main else if k + 1 = d.idx then d.left
        else if k = d.idx + 1 then d.right else 0)) := by
  have h0 : ch[k].score = 0 := hz _ (List.getElem_mem hk)
  have hc : ch[k]? = some ch[k] := List.getElem?_eq_getElem hk
  by_cases hl1 : 1 ≤ d.idx <;> by_cases hr1 : d.idx + 1 < cfg.numChannels <;>
    simp only [emulatedScores, hd, hl1, hr1, if_true, if_false, List.getElem?_modify, hc, Option.map_eq_map,
      Option.map_some] <;>
    congr 1 <;> split_ifs <;> first | omega | simp [Channel.award, h0]

@[simp] theorem State.scored_length (s : State) : s.scored.length = s.ch.length := by
  unfold State.scored
  split <;> simp

end Sys2Proof.Machine
end

