-- ==== Sys2Proof/Laws/Config.lean ====
section
/-! SUPPORT. What a well-formed configuration gives (R10): one lemma per check. -/

namespace Sys2Proof.Machine

theorem mem_allCfgChecks (c : CfgCheck) : c ∈ allCfgChecks := by
  cases c <;> decide

/-- A configuration is well formed exactly when every check holds (R10). -/
theorem cfgWF_iff (cfg : Config) : CfgWF cfg ↔ ∀ c, cfgCheckHolds cfg c = true := by
  simp only [CfgWF, failedCheck, List.find?_eq_none, Bool.not_eq_true', Bool.not_eq_false]
  exact ⟨fun h c => h c (mem_allCfgChecks c), fun h c _ => h c⟩

/-- The check that is reported fails (R264). -/
theorem failedCheck_fails {cfg : Config} {c : CfgCheck} (h : failedCheck cfg = some c) :
    cfgCheckHolds cfg c = false := by
  simpa using List.find?_some h

theorem CfgWF.nativeSpan {cfg : Config} (h : CfgWF cfg) : cfg.nativeMin ≠ cfg.nativeMax := by
  simpa [cfgCheckHolds] using (cfgWF_iff cfg).mp h .nativeSpan

theorem CfgWF.rangeInNative {cfg : Config} (h : CfgWF cfg) {r : CalRange} (hr : r ∈ calRanges cfg) :
    (min cfg.nativeMin cfg.nativeMax ≤ r.r0 ∧ r.r0 ≤ max cfg.nativeMin cfg.nativeMax)
      ∧ min cfg.nativeMin cfg.nativeMax ≤ r.r1 ∧ r.r1 ≤ max cfg.nativeMin cfg.nativeMax := by
  have h := (cfgWF_iff cfg).mp h .rangeInNative
  simp only [cfgCheckHolds, List.all_eq_true, inNative, Bool.and_eq_true, decide_eq_true_eq] at h
  exact h r hr

theorem CfgWF.htDomain {cfg : Config} (h : CfgWF cfg) :
    1 ≤ cfg.htLoDmax ∧ cfg.htLoDmax ≤ 1023 ∧ 0 ≤ cfg.htHiDmin ∧ cfg.htHiDmin ≤ 1022 := by
  have h := (cfgWF_iff cfg).mp h .htDomain
  simpa only [cfgCheckHolds, Bool.and_eq_true, decide_eq_true_eq, and_assoc] using h

theorem CfgWF.envAxes {cfg : Config} (h : CfgWF cfg) :
    ∃ a b, axisOfOpcode cfg.envAxisA = some a ∧ axisOfOpcode cfg.envAxisB = some b := by
  have h := (cfgWF_iff cfg).mp h .envAxes
  simp only [cfgCheckHolds, Bool.and_eq_true, Option.isSome_iff_exists] at h
  obtain ⟨⟨a, ha⟩, b, hb⟩ := h
  exact ⟨a, b, ha, hb⟩

theorem CfgWF.periods {cfg : Config} (h : CfgWF cfg) :
    1 ≤ cfg.aggPeriod ∧ 1 ≤ cfg.envPeriod ∧ 1 ≤ cfg.cycleWrap
      ∧ cfg.cycleWrap % Nat.lcm cfg.aggPeriod cfg.envPeriod = 0 ∧ cfg.cycleWrap ≤ 2 ^ cfg.cycleBits := by
  have h := (cfgWF_iff cfg).mp h .periods
  simpa only [cfgCheckHolds, Bool.and_eq_true, decide_eq_true_eq, and_assoc] using h

theorem CfgWF.hist {cfg : Config} (h : CfgWF cfg) : 1 ≤ cfg.histLen := by
  simpa [cfgCheckHolds] using (cfgWF_iff cfg).mp h .hist

theorem CfgWF.avg {cfg : Config} (h : CfgWF cfg) : 0 < cfg.avgFloor ∧ cfg.avgFloor < cfg.avgCap := by
  have h := (cfgWF_iff cfg).mp h .avg
  simpa only [cfgCheckHolds, Bool.and_eq_true, decide_eq_true_eq] using h

theorem CfgWF.ref {cfg : Config} (h : CfgWF cfg) : cfg.refChannel < cfg.numChannels := by
  have h := (cfgWF_iff cfg).mp h .ref
  simpa only [cfgCheckHolds, decide_eq_true_eq] using h

theorem CfgWF.widths {cfg : Config} (h : CfgWF cfg) :
    1 ≤ cfg.sampleBits ∧ cfg.sampleBits ≤ 16 ∧ 1 ≤ cfg.durationBits ∧ 1 ≤ cfg.scoreBits := by
  have h := (cfgWF_iff cfg).mp h .widths
  simpa only [cfgCheckHolds, Bool.and_eq_true, decide_eq_true_eq, and_assoc] using h

theorem CfgWF.emu {cfg : Config} (h : CfgWF cfg) : 1 ≤ cfg.emuIndexSpan ∧ 1 ≤ cfg.emuMainMax := by
  have h := (cfgWF_iff cfg).mp h .emu
  simpa only [cfgCheckHolds, Bool.and_eq_true, decide_eq_true_eq] using h

theorem CfgWF.datapath {cfg : Config} (h : CfgWF cfg) :
    (∀ r ∈ calRanges cfg, 1023 * (r.r1 - r.r0).natAbs < 2 ^ 31)
      ∧ (cfg.nativeMax - cfg.nativeMin).natAbs * (cfg.outMax - cfg.outMin).natAbs < 2 ^ 31 := by
  have h := (cfgWF_iff cfg).mp h .datapath
  simpa only [cfgCheckHolds, Bool.and_eq_true, List.all_eq_true, decide_eq_true_eq] using h

/-- The calibrated range of an axis is one of the calibrated ranges (R10). -/
theorem calRange_mem {cfg : Config} {a : Axis} {r : CalRange} (h : cfg.calRange a = some r) :
    r ∈ calRanges cfg := by
  cases a <;> simp_all [Config.calRange, calRanges]

theorem htLo_mem (cfg : Config) : cfg.htLo ∈ calRanges cfg := by simp [calRanges]

theorem htHi_mem (cfg : Config) : cfg.htHi ∈ calRanges cfg := by simp [calRanges]

end Sys2Proof.Machine
end

