-- ==== Sys2Proof/Laws/State.lean ====
section
/-! SUPPORT. One lemma per field per update: what each operation that updates the state leaves in each field.
Every one is true by `rfl`, and later proofs use these rather than unfolding a record update. -/

namespace Sys2Proof.Machine

/-! Emitting events (R56). -/

@[simp] theorem State.emit_cfg (es : List Event) (s : State) :
    (s.emit es).cfg = s.cfg := rfl
@[simp] theorem State.emit_armed (es : List Event) (s : State) :
    (s.emit es).armed = s.armed := rfl
@[simp] theorem State.emit_emu (es : List Event) (s : State) :
    (s.emit es).emu = s.emu := rfl
@[simp] theorem State.emit_cycle (es : List Event) (s : State) :
    (s.emit es).cycle = s.cycle := rfl
@[simp] theorem State.emit_ch (es : List Event) (s : State) :
    (s.emit es).ch = s.ch := rfl
@[simp] theorem State.emit_rx (es : List Event) (s : State) :
    (s.emit es).rx = s.rx := rfl
@[simp] theorem State.emit_events (es : List Event) (s : State) :
    (s.emit es).events = s.events ++ es := rfl
@[simp] theorem State.emit_restart (es : List Event) (s : State) :
    (s.emit es).restart = s.restart := rfl
@[simp] theorem State.emit_inputs (es : List Event) (s : State) :
    (s.emit es).inputs = s.inputs := rfl
@[simp] theorem State.emit_freeCtr (es : List Event) (s : State) :
    (s.emit es).freeCtr = s.freeCtr := rfl

/-! MOTION (R172). -/

@[simp] theorem State.motion_cfg (a : Axis) (p : Payload) (s : State) :
    (s.motion a p).cfg = s.cfg := rfl
@[simp] theorem State.motion_armed (a : Axis) (p : Payload) (s : State) :
    (s.motion a p).armed = s.armed := rfl
@[simp] theorem State.motion_emu (a : Axis) (p : Payload) (s : State) :
    (s.motion a p).emu = s.emu := rfl
@[simp] theorem State.motion_cycle (a : Axis) (p : Payload) (s : State) :
    (s.motion a p).cycle = s.cycle := rfl
@[simp] theorem State.motion_ch (a : Axis) (p : Payload) (s : State) :
    (s.motion a p).ch = s.ch := rfl
@[simp] theorem State.motion_rx (a : Axis) (p : Payload) (s : State) :
    (s.motion a p).rx = s.rx := rfl
@[simp] theorem State.motion_events (a : Axis) (p : Payload) (s : State) :
    (s.motion a p).events = s.events ++ (if s.attachedAt a then [.setPosition a (mapAxis s.cfg a p)] else []) := rfl
@[simp] theorem State.motion_restart (a : Axis) (p : Payload) (s : State) :
    (s.motion a p).restart = s.restart := rfl
@[simp] theorem State.motion_inputs (a : Axis) (p : Payload) (s : State) :
    (s.motion a p).inputs = s.inputs := rfl
@[simp] theorem State.motion_freeCtr (a : Axis) (p : Payload) (s : State) :
    (s.motion a p).freeCtr = s.freeCtr := rfl

/-! BINARY (R173). -/

@[simp] theorem State.binary_cfg (b : BinOut) (l : Bool) (s : State) :
    (s.binary b l).cfg = s.cfg := rfl
@[simp] theorem State.binary_armed (b : BinOut) (l : Bool) (s : State) :
    (s.binary b l).armed = s.armed := rfl
@[simp] theorem State.binary_emu (b : BinOut) (l : Bool) (s : State) :
    (s.binary b l).emu = s.emu := rfl
@[simp] theorem State.binary_cycle (b : BinOut) (l : Bool) (s : State) :
    (s.binary b l).cycle = s.cycle := rfl
@[simp] theorem State.binary_ch (b : BinOut) (l : Bool) (s : State) :
    (s.binary b l).ch = s.ch := rfl
@[simp] theorem State.binary_rx (b : BinOut) (l : Bool) (s : State) :
    (s.binary b l).rx = s.rx := rfl
@[simp] theorem State.binary_events (b : BinOut) (l : Bool) (s : State) :
    (s.binary b l).events = s.events ++ (if s.cfg.binBound b then [.setLevel b l] else []) := rfl
@[simp] theorem State.binary_restart (b : BinOut) (l : Bool) (s : State) :
    (s.binary b l).restart = s.restart := rfl
@[simp] theorem State.binary_inputs (b : BinOut) (l : Bool) (s : State) :
    (s.binary b l).inputs = s.inputs := rfl
@[simp] theorem State.binary_freeCtr (b : BinOut) (l : Bool) (s : State) :
    (s.binary b l).freeCtr = s.freeCtr := rfl

/-! RESET_STATE (R281, R282). -/

@[simp] theorem State.resetState_cfg (s : State) :
    (s.resetState).cfg = s.cfg := rfl
@[simp] theorem State.resetState_armed (s : State) :
    (s.resetState).armed = true := rfl
@[simp] theorem State.resetState_emu (s : State) :
    (s.resetState).emu = false := rfl
@[simp] theorem State.resetState_cycle (s : State) :
    (s.resetState).cycle = 0 := rfl
@[simp] theorem State.resetState_ch (s : State) :
    (s.resetState).ch = List.replicate s.cfg.numChannels (Channel.atReset s.cfg) := rfl
@[simp] theorem State.resetState_rx (s : State) :
    (s.resetState).rx = (if s.input.keepRx then s.rx else []) := rfl
@[simp] theorem State.resetState_events (s : State) :
    (s.resetState).events = s.events := rfl
@[simp] theorem State.resetState_restart (s : State) :
    (s.resetState).restart = s.restart := rfl
@[simp] theorem State.resetState_inputs (s : State) :
    (s.resetState).inputs = s.inputs := rfl
@[simp] theorem State.resetState_freeCtr (s : State) :
    (s.resetState).freeCtr = s.freeCtr := rfl

/-! SENSE of one channel (R210). -/

@[simp] theorem State.sense_cfg (k v : Nat) (s : State) :
    (s.sense k v).cfg = s.cfg := rfl
@[simp] theorem State.sense_armed (k v : Nat) (s : State) :
    (s.sense k v).armed = s.armed := rfl
@[simp] theorem State.sense_emu (k v : Nat) (s : State) :
    (s.sense k v).emu = s.emu := rfl
@[simp] theorem State.sense_cycle (k v : Nat) (s : State) :
    (s.sense k v).cycle = s.cycle := rfl
@[simp] theorem State.sense_ch (k v : Nat) (s : State) :
    (s.sense k v).ch = s.ch.modify k (Channel.sense s.cfg v) := rfl
@[simp] theorem State.sense_rx (k v : Nat) (s : State) :
    (s.sense k v).rx = s.rx := rfl
@[simp] theorem State.sense_events (k v : Nat) (s : State) :
    (s.sense k v).events = s.events := rfl
@[simp] theorem State.sense_restart (k v : Nat) (s : State) :
    (s.sense k v).restart = s.restart := rfl
@[simp] theorem State.sense_inputs (k v : Nat) (s : State) :
    (s.sense k v).inputs = s.inputs := rfl
@[simp] theorem State.sense_freeCtr (k v : Nat) (s : State) :
    (s.sense k v).freeCtr = s.freeCtr := rfl

/-! The indicator (R220). -/

@[simp] theorem State.indicate_cfg (k : Nat) (s : State) :
    (s.indicate k).cfg = s.cfg := rfl
@[simp] theorem State.indicate_armed (k : Nat) (s : State) :
    (s.indicate k).armed = s.armed := rfl
@[simp] theorem State.indicate_emu (k : Nat) (s : State) :
    (s.indicate k).emu = s.emu := rfl
@[simp] theorem State.indicate_cycle (k : Nat) (s : State) :
    (s.indicate k).cycle = s.cycle := rfl
@[simp] theorem State.indicate_ch (k : Nat) (s : State) :
    (s.indicate k).ch = s.ch := rfl
@[simp] theorem State.indicate_rx (k : Nat) (s : State) :
    (s.indicate k).rx = s.rx := rfl
@[simp] theorem State.indicate_events (k : Nat) (s : State) :
    (s.indicate k).events = s.events ++ (if k = s.cfg.refChannel ∧ s.cfg.binBound .indicator = true
      then [.setLevel .indicator (s.chan k).active] else []) := rfl
@[simp] theorem State.indicate_restart (k : Nat) (s : State) :
    (s.indicate k).restart = s.restart := rfl
@[simp] theorem State.indicate_inputs (k : Nat) (s : State) :
    (s.indicate k).inputs = s.inputs := rfl
@[simp] theorem State.indicate_freeCtr (k : Nat) (s : State) :
    (s.indicate k).freeCtr = s.freeCtr := rfl

/-! AGGREGATE (R222 to R225). -/

@[simp] theorem State.aggregate_cfg (s : State) :
    (s.aggregate).cfg = s.cfg := rfl
@[simp] theorem State.aggregate_armed (s : State) :
    (s.aggregate).armed = s.armed := rfl
@[simp] theorem State.aggregate_emu (s : State) :
    (s.aggregate).emu = false := rfl
@[simp] theorem State.aggregate_cycle (s : State) :
    (s.aggregate).cycle = s.cycle := rfl
@[simp] theorem State.aggregate_ch (s : State) :
    (s.aggregate).ch = s.scored.map Channel.clearScore := rfl
@[simp] theorem State.aggregate_rx (s : State) :
    (s.aggregate).rx = s.rx := rfl
@[simp] theorem State.aggregate_events (s : State) :
    (s.aggregate).events = s.events ++ (if s.found then [.report (s.scored.map Channel.score)] else []) := rfl
@[simp] theorem State.aggregate_restart (s : State) :
    (s.aggregate).restart = s.restart := rfl
@[simp] theorem State.aggregate_inputs (s : State) :
    (s.aggregate).inputs = s.inputs := rfl
@[simp] theorem State.aggregate_freeCtr (s : State) :
    (s.aggregate).freeCtr = s.freeCtr := rfl

/-! Phase 3 (R120 to R125). -/

@[simp] theorem State.decodePhase_cfg (s : State) :
    (s.decodePhase).cfg = s.cfg := rfl
@[simp] theorem State.decodePhase_armed (s : State) :
    (s.decodePhase).armed = s.armed := rfl
@[simp] theorem State.decodePhase_emu (s : State) :
    (s.decodePhase).emu = s.emu := rfl
@[simp] theorem State.decodePhase_cycle (s : State) :
    (s.decodePhase).cycle = s.cycle := rfl
@[simp] theorem State.decodePhase_ch (s : State) :
    (s.decodePhase).ch = s.ch := rfl
@[simp] theorem State.decodePhase_rx (s : State) :
    (s.decodePhase).rx = (takeFrame s.input s.rx).2 := rfl
@[simp] theorem State.decodePhase_events (s : State) :
    (s.decodePhase).events = s.events ++ (s.decodedFrame.map echoOf).getD [] := rfl
@[simp] theorem State.decodePhase_restart (s : State) :
    (s.decodePhase).restart = s.restart := rfl
@[simp] theorem State.decodePhase_inputs (s : State) :
    (s.decodePhase).inputs = s.inputs := rfl
@[simp] theorem State.decodePhase_freeCtr (s : State) :
    (s.decodePhase).freeCtr = s.freeCtr := rfl

/-! The start of a cycle (R111). -/

@[simp] theorem State.beginCycle_cfg (s : State) :
    (s.beginCycle).cfg = s.cfg := rfl
@[simp] theorem State.beginCycle_armed (s : State) :
    (s.beginCycle).armed = s.armed := rfl
@[simp] theorem State.beginCycle_emu (s : State) :
    (s.beginCycle).emu = s.emu := rfl
@[simp] theorem State.beginCycle_cycle (s : State) :
    (s.beginCycle).cycle = s.cycle := rfl
@[simp] theorem State.beginCycle_ch (s : State) :
    (s.beginCycle).ch = s.ch := rfl
@[simp] theorem State.beginCycle_rx (s : State) :
    (s.beginCycle).rx = s.rx ++ s.input.arrivals := rfl
@[simp] theorem State.beginCycle_events (s : State) :
    (s.beginCycle).events = [] := rfl
@[simp] theorem State.beginCycle_restart (s : State) :
    (s.beginCycle).restart = false := rfl
@[simp] theorem State.beginCycle_inputs (s : State) :
    (s.beginCycle).inputs = s.inputs := rfl
@[simp] theorem State.beginCycle_freeCtr (s : State) :
    (s.beginCycle).freeCtr = s.freeCtr := rfl

/-! The end of a cycle. -/

@[simp] theorem State.endCycle_cfg (s : State) :
    (s.endCycle).cfg = s.cfg := rfl
@[simp] theorem State.endCycle_armed (s : State) :
    (s.endCycle).armed = s.armed := rfl
@[simp] theorem State.endCycle_emu (s : State) :
    (s.endCycle).emu = s.emu := rfl
@[simp] theorem State.endCycle_cycle (s : State) :
    (s.endCycle).cycle = s.cycle := rfl
@[simp] theorem State.endCycle_ch (s : State) :
    (s.endCycle).ch = s.ch := rfl
@[simp] theorem State.endCycle_rx (s : State) :
    (s.endCycle).rx = s.rx := rfl
@[simp] theorem State.endCycle_events (s : State) :
    (s.endCycle).events = s.events := rfl
@[simp] theorem State.endCycle_restart (s : State) :
    (s.endCycle).restart = false := rfl
@[simp] theorem State.endCycle_inputs (s : State) :
    (s.endCycle).inputs = s.inputs.tail := rfl
@[simp] theorem State.endCycle_freeCtr (s : State) :
    (s.endCycle).freeCtr = (if s.inputs.isEmpty then s.freeCtr + 1 else s.freeCtr) := rfl

end Sys2Proof.Machine
end

