-- ==== Sys2Proof/Laws/Ops.lean ====
section
/-! SUPPORT. What the shared operations can do: the armed gate, the motion effects and ENVELOPE write nothing but
the event list; the ports read within their ranges. -/

namespace Sys2Proof.Machine

/-! The ports are functions of CFG and the inputs alone (R81). -/

theorem State.input_congr {s t : State} (hi : t.inputs = s.inputs) (hf : t.freeCtr = s.freeCtr) :
    t.input = s.input := by
  simp only [State.input, hi, hf]

theorem State.sampleAt_congr {s t : State} (hi : t.input = s.input) (hc : t.cfg = s.cfg) (k : Nat) :
    t.sampleAt k = s.sampleAt k := by
  simp only [State.sampleAt, hi, hc]

theorem State.attachedAt_congr {s t : State} (hi : t.input = s.input) (a : Axis) :
    t.attachedAt a = s.attachedAt a := by
  simp only [State.attachedAt, hi]

theorem State.draw_congr {s t : State} (hi : t.input = s.input) (hc : t.cfg = s.cfg) :
    t.draw = s.draw := by
  simp only [State.draw, hi, hc]

/-- A sample is a SAMPLE_BITS-bit value (R54). -/
theorem State.sampleAt_lt (s : State) (k : Nat) : s.sampleAt k < 2 ^ s.cfg.sampleBits :=
  Nat.mod_lt _ (Nat.two_pow_pos _)

/-- A draw lies in the ranges of R57. -/
theorem drawInRange_bounds {cfg : Config} (hs : 1 ≤ cfg.emuIndexSpan) (hm : 1 ≤ cfg.emuMainMax) (d : Draw) :
    (drawInRange cfg d).idx < cfg.emuIndexSpan ∧ 1 ≤ (drawInRange cfg d).main
      ∧ (drawInRange cfg d).main ≤ cfg.emuMainMax ∧ (drawInRange cfg d).left ≤ cfg.emuNeighborMax
      ∧ (drawInRange cfg d).right ≤ cfg.emuNeighborMax := by
  have h1 := Nat.mod_lt d.idx hs
  have h2 := Nat.mod_lt d.main hm
  have h3 : d.left % (cfg.emuNeighborMax + 1) < cfg.emuNeighborMax + 1 := Nat.mod_lt _ (Nat.succ_pos _)
  have h4 : d.right % (cfg.emuNeighborMax + 1) < cfg.emuNeighborMax + 1 := Nat.mod_lt _ (Nat.succ_pos _)
  simp only [drawInRange]
  refine ⟨h1, ?_, ?_, by omega, by omega⟩ <;> split <;> omega

/-! The armed gate (R171). -/

@[simp] theorem State.whenArmed_of_armed {s : State} (h : s.armed = true) (f : State → State) :
    s.whenArmed f = f s := by
  simp [State.whenArmed, h]

@[simp] theorem State.whenArmed_of_disarmed {s : State} (h : s.armed = false) (f : State → State) :
    s.whenArmed f = s := by
  simp [State.whenArmed, h]

/-- The events of a motion effect (R172). -/
def State.motionEvents (s : State) (a : Axis) (p : Payload) : List Event :=
  if s.attachedAt a then [.setPosition a (mapAxis s.cfg a p)] else []

/-- The events of a motion effect on an axis named by its opcode value (R172). -/
def State.motionOpEvents (s : State) (op : Nat) (p : Payload) : List Event :=
  match axisOfOpcode op with
  | some a => s.motionEvents a p
  | none => []

/-- The events of a binary-output effect (R173). -/
def State.binaryEvents (s : State) (b : BinOut) (l : Bool) : List Event :=
  if s.cfg.binBound b then [.setLevel b l] else []

theorem State.emit_nil (s : State) : s.emit [] = s := by
  simp [State.emit]

theorem State.emit_emit (s : State) (es fs : List Event) : (s.emit es).emit fs = s.emit (es ++ fs) := by
  simp [State.emit]

theorem State.motion_eq (s : State) (a : Axis) (p : Payload) :
    s.motion a p = s.emit (s.motionEvents a p) := rfl

theorem State.binary_eq (s : State) (b : BinOut) (l : Bool) :
    s.binary b l = s.emit (s.binaryEvents b l) := rfl

theorem State.motionByOpcode_eq (s : State) (op : Nat) (p : Payload) :
    s.motionByOpcode op p = s.emit (s.motionOpEvents op p) := by
  unfold State.motionByOpcode State.motionOpEvents
  cases axisOfOpcode op with
  | some a => rfl
  | none => exact s.emit_nil.symm

@[simp] theorem State.motionEvents_emit (s : State) (es : List Event) (a : Axis) (p : Payload) :
    (s.emit es).motionEvents a p = s.motionEvents a p := rfl

@[simp] theorem State.motionOpEvents_emit (s : State) (es : List Event) (op : Nat) (p : Payload) :
    (s.emit es).motionOpEvents op p = s.motionOpEvents op p := rfl

@[simp] theorem State.binaryEvents_emit (s : State) (es : List Event) (b : BinOut) (l : Bool) :
    (s.emit es).binaryEvents b l = s.binaryEvents b l := rfl

/-- The events of an ENVELOPE, in the order A, B, output (R180). -/
def State.envelopeEvents (s : State) (p : Payload) : List Event :=
  s.motionOpEvents s.cfg.envAxisA p
    ++ (if onCadence s.cycle s.cfg.envPeriod then s.motionOpEvents s.cfg.envAxisB p else [])
    ++ s.binaryEvents s.cfg.envOutput (envLevel s.cfg p)

theorem State.envelopeAxisB_eq (s : State) (p : Payload) :
    s.envelopeAxisB p =
      s.emit (if onCadence s.cycle s.cfg.envPeriod then s.motionOpEvents s.cfg.envAxisB p else []) := by
  unfold State.envelopeAxisB
  split
  · exact s.motionByOpcode_eq _ p
  · exact s.emit_nil.symm

/-- ENVELOPE writes nothing but the event list (R180). -/
theorem State.envelope_eq (s : State) (p : Payload) : s.envelope p = s.emit (s.envelopeEvents p) := by
  unfold State.envelope
  rw [s.motionByOpcode_eq, State.envelopeAxisB_eq, State.emit_emit, State.binary_eq, State.emit_emit]
  rfl

end Sys2Proof.Machine
end

