-- ==== Sys2Proof/Laws/Exec.lean ====
section
/-! SUPPORT. What a dispatch can do, said once (R170): the events it emits, and the three flags it writes. -/

namespace Sys2Proof.Machine

/-- The events an instruction emits when it is processed (R170 to R190). -/
def State.effectEvents (s : State) : Instr → List Event
  | .idle _ => []
  | .bodyTilt p => s.motionEvents .bodyTilt p
  | .wings p => s.motionEvents .wings p
  | .headTilt p => s.motionEvents .headTilt p
  | .headRotate p => s.motionEvents .headRotate p
  | .beak p => s.motionEvents .beak p
  | .envelope p => s.envelopeEvents p
  | .eyes p => s.binaryEvents .eyes (binLevel p)
  | .fog p => s.binaryEvents .fog (binLevel p)
  | .isAlive _ => [.aliveAck]
  | .emulateRadar _ => []
  | .deactivate _ => []
  | .reactivate _ => []
  | .reset _ => [.restartReq]
  | .unknown op p => [.unknownLog op p]

/-- RESET, DEACTIVATE and REACTIVATE are decided before the armed gate (R170). -/
def ungated : Instr → Bool
  | .deactivate _ => true
  | .reactivate _ => true
  | .reset _ => true
  | .idle _ => false
  | .bodyTilt _ => false
  | .wings _ => false
  | .headTilt _ => false
  | .headRotate _ => false
  | .beak _ => false
  | .envelope _ => false
  | .eyes _ => false
  | .fog _ => false
  | .isAlive _ => false
  | .emulateRadar _ => false
  | .unknown _ _ => false

/-- `S.armed` after a dispatch (R187, R188). -/
def armedAfter (armed : Bool) : Instr → Bool
  | .deactivate _ => false
  | .reactivate _ => true
  | .reset _ => armed
  | .idle _ => armed
  | .bodyTilt _ => armed
  | .wings _ => armed
  | .headTilt _ => armed
  | .headRotate _ => armed
  | .beak _ => armed
  | .envelope _ => armed
  | .eyes _ => armed
  | .fog _ => armed
  | .isAlive _ => armed
  | .emulateRadar _ => armed
  | .unknown _ _ => armed

/-- The frame is EMULATE_RADAR (R186). -/
def isEmulate : Instr → Bool
  | .emulateRadar _ => true
  | .deactivate _ => false
  | .reactivate _ => false
  | .reset _ => false
  | .idle _ => false
  | .bodyTilt _ => false
  | .wings _ => false
  | .headTilt _ => false
  | .headRotate _ => false
  | .beak _ => false
  | .envelope _ => false
  | .eyes _ => false
  | .fog _ => false
  | .isAlive _ => false
  | .unknown _ _ => false

/-- The frame is RESET (R189). -/
def isReset : Instr → Bool
  | .reset _ => true
  | .deactivate _ => false
  | .reactivate _ => false
  | .emulateRadar _ => false
  | .idle _ => false
  | .bodyTilt _ => false
  | .wings _ => false
  | .headTilt _ => false
  | .headRotate _ => false
  | .beak _ => false
  | .envelope _ => false
  | .eyes _ => false
  | .fog _ => false
  | .isAlive _ => false
  | .unknown _ _ => false

/-- The state after DISPATCH (R170). -/
def State.dispatched (i : Instr) (s : State) : State :=
  { s with
    armed := armedAfter s.armed i
    emu := s.emu || (s.armed && isEmulate i)
    events := s.events ++ (if s.armed || ungated i then s.effectEvents i else [])
    restart := s.restart || isReset i }

/-- DISPATCH always completes, and this is all it does (R170, R192). -/
theorem exec_eq (i : Instr) (s : State) : exec i s = .next (s.dispatched i) := by
  obtain ⟨cfg, armed, emu, cycle, ch, rx, events, restart, inputs, freeCtr⟩ := s
  cases armed <;> cases i <;>
    simp [exec, execIdle, execBodyTilt, execWings, execHeadTilt, execHeadRotate, execBeak, execEnvelope,
      execEyes, execFog, execIsAlive, execEmulateRadar, execDeactivate, execReactivate, execReset,
      execUnknown, State.dispatched, armedAfter, isEmulate, isReset, ungated, State.effectEvents,
      State.motion_eq, State.binary_eq, State.envelope_eq, State.emit]

end Sys2Proof.Machine
end

