-- ==== Sys2Proof/Laws/Sensor.lean ====
section
/-! SUPPORT. SENSE: the effect of phase 1 in closed form, channel by channel (R210, R220). -/

namespace Sys2Proof.Machine

/-- The channel file after SENSE of channel `k`, where `k` has an input (R44, R210). -/
def State.chSensed (s : State) (k : Nat) : List Channel :=
  if s.cfg.inputBoundAt k then s.ch.modify k (Channel.sense s.cfg (s.sampleAt k)) else s.ch

/-- What SENSE of a channel does besides the channel: the indicator event of the reference channel (R220). -/
def State.indicatorEvents (s : State) (k : Nat) : List Event :=
  if s.cfg.inputBoundAt k = true ∧ k = s.cfg.refChannel ∧ s.cfg.binBound .indicator = true then
    [.setLevel .indicator ((s.chSensed k).getD k (Channel.atReset s.cfg)).active]
  else []

theorem State.senseChannel_eq (s : State) (k : Nat) :
    s.senseChannel k = { s with ch := s.chSensed k, events := s.events ++ s.indicatorEvents k } := by
  unfold State.senseChannel State.indicatorEvents State.chSensed
  by_cases h : s.cfg.inputBoundAt k = true
  · simp only [h, if_true, true_and]
    rfl
  · simp [h]

/-- Phase 1 on channels `0..m-1`. -/
def State.senseUpTo (m : Nat) (s : State) : State := (List.range m).foldl State.senseChannel s

theorem State.senseUpTo_zero (s : State) : s.senseUpTo 0 = s := rfl

theorem State.senseUpTo_succ (m : Nat) (s : State) :
    s.senseUpTo (m + 1) = (s.senseUpTo m).senseChannel m := by
  simp [State.senseUpTo, List.range_succ]

theorem State.sensePhase_eq_upTo (s : State) : s.sensePhase = s.senseUpTo s.cfg.numChannels := rfl

/-- The channel file after phase 1 on channels `0..m-1`. -/
def State.sensedUpTo (m : Nat) (s : State) : List Channel :=
  s.ch.mapIdx fun k c =>
    if k < m ∧ s.cfg.inputBoundAt k = true then c.sense s.cfg (s.sampleAt k) else c

@[simp] theorem State.sensedUpTo_length (m : Nat) (s : State) : (s.sensedUpTo m).length = s.ch.length := by
  simp [State.sensedUpTo]

/-- The indicator events of phase 1 on channels `0..m-1` (R220). -/
def State.indicatedUpTo (m : Nat) (s : State) : List Event :=
  if s.cfg.refChannel < m ∧ s.cfg.inputBoundAt s.cfg.refChannel = true
      ∧ s.cfg.binBound .indicator = true then
    [.setLevel .indicator
      ((s.sensedUpTo m).getD s.cfg.refChannel (Channel.atReset s.cfg)).active]
  else []

theorem State.sensedUpTo_succ (m : Nat) (s : State) :
    s.sensedUpTo (m + 1) =
      if s.cfg.inputBoundAt m then
        (s.sensedUpTo m).modify m (Channel.sense s.cfg (s.sampleAt m))
      else s.sensedUpTo m := by
  apply List.ext_getElem?
  intro k
  by_cases hb : s.cfg.inputBoundAt m = true
  · rw [if_pos hb, List.getElem?_modify]
    simp only [State.sensedUpTo, List.getElem?_mapIdx]
    rcases Nat.lt_trichotomy k m with h | h | h
    · have h1 : k < m + 1 := by omega
      have h2 : m ≠ k := by omega
      cases s.ch[k]? <;> simp [h, h1, h2]
    · subst h
      cases s.ch[k]? <;> simp [hb]
    · have h1 : ¬ k < m + 1 := by omega
      have h2 : ¬ k < m := by omega
      have h3 : m ≠ k := by omega
      cases s.ch[k]? <;> simp [h1, h2, h3]
  · rw [if_neg hb]
    simp only [State.sensedUpTo, List.getElem?_mapIdx]
    congr 1
    funext c
    by_cases h : k = m
    · subst h; simp [hb]
    · have h1 : k < m + 1 ↔ k < m := by omega
      simp [h1]

/-- The later channels do not touch the reference channel's record. -/
theorem State.sensedUpTo_getD {m k : Nat} (s : State) (h : k < m) (d : Channel) :
    (s.sensedUpTo (m + 1)).getD k d = (s.sensedUpTo m).getD k d := by
  have h1 : k ≤ m := by omega
  simp [State.sensedUpTo, List.getD_eq_getElem?_getD, h, h1]

theorem State.senseUpTo_eq (m : Nat) (s : State) :
    s.senseUpTo m = { s with ch := s.sensedUpTo m, events := s.events ++ s.indicatedUpTo m } := by
  induction m with
  | zero =>
    have h : s.sensedUpTo 0 = s.ch := by
      apply List.ext_getElem?
      intro k
      simp [State.sensedUpTo]
    simp [State.senseUpTo_zero, h, State.indicatedUpTo]
  | succ m ih =>
    rw [State.senseUpTo_succ, State.senseChannel_eq, ih]
    have hs : ∀ k, State.sampleAt { s with
        ch := s.sensedUpTo m, events := s.events ++ s.indicatedUpTo m } k = s.sampleAt k := fun _ => rfl
    have hch : State.chSensed { s with
        ch := s.sensedUpTo m, events := s.events ++ s.indicatedUpTo m } m = s.sensedUpTo (m + 1) := by
      rw [State.sensedUpTo_succ]
      rfl
    have hev : s.indicatedUpTo m ++ State.indicatorEvents { s with
        ch := s.sensedUpTo m, events := s.events ++ s.indicatedUpTo m } m = s.indicatedUpTo (m + 1) := by
      unfold State.indicatorEvents
      rw [hch]
      unfold State.indicatedUpTo
      simp only
      rcases Nat.lt_trichotomy s.cfg.refChannel m with h | h | h
      · have h1 : m ≠ s.cfg.refChannel := by omega
        have h2 : s.cfg.refChannel < m + 1 := by omega
        simp only [h, h2, h1, true_and, false_and, and_false, if_false, List.append_nil,
          s.sensedUpTo_getD h]
      · subst h
        simp
      · have h1 : m ≠ s.cfg.refChannel := by omega
        have h2 : ¬ s.cfg.refChannel < m := by omega
        have h3 : ¬ s.cfg.refChannel < m + 1 := by omega
        simp [h1, h2, h3]
    rw [hch, ← hev]
    simp

/-- Phase 1 in closed form: every bound channel takes its sample, and the reference channel's `active` is
indicated (R111, R210, R220). -/
theorem State.sensePhase_eq (s : State) :
    s.sensePhase = { s with
      ch := s.sensedUpTo s.cfg.numChannels
      events := s.events ++ s.indicatedUpTo s.cfg.numChannels } := by
  rw [State.sensePhase_eq_upTo, State.senseUpTo_eq]

/-- One channel after phase 1 (R44, R210). -/
theorem State.sensePhase_chan (s : State) {k : Nat} (h : k < s.ch.length) :
    s.sensePhase.chan k =
      if k < s.cfg.numChannels ∧ s.cfg.inputBoundAt k = true then (s.chan k).sense s.cfg (s.sampleAt k)
      else s.chan k := by
  rw [State.sensePhase_eq]
  simp [State.chan, State.sensedUpTo, List.getD_eq_getElem?_getD, h]

@[simp] theorem State.sensePhase_length (s : State) : s.sensePhase.ch.length = s.ch.length := by
  rw [State.sensePhase_eq]
  simp [State.sensedUpTo]

end Sys2Proof.Machine
end

