-- ==== Sys2Proof/Laws/Cycle.lean ====
section
/-! SUPPORT. What a step can do, said once (R111): the state before the dispatch field by field, and the one
inversion lemma of `step`. -/

namespace Sys2Proof.Machine

/-! Phase 2 changes the channel file, the emulation flag and the event list (R222 to R225). -/

/-- The events of phase 2 (R221, R223). -/
def State.reportEvents (s : State) : List Event :=
  if onCadence s.cycle s.cfg.aggPeriod = true ∧ s.found = true then [.report (s.scored.map Channel.score)]
  else []

/-- The channel file after phase 2 (R221 to R225). -/
def State.aggregated (s : State) : List Channel :=
  if onCadence s.cycle s.cfg.aggPeriod then s.scored.map Channel.clearScore else s.ch

theorem State.aggregatePhase_eq (s : State) :
    s.aggregatePhase = { s with
      ch := s.aggregated
      emu := if onCadence s.cycle s.cfg.aggPeriod then false else s.emu
      events := s.events ++ s.reportEvents } := by
  unfold State.aggregatePhase State.aggregated State.reportEvents State.aggregate State.emit
  by_cases h : onCadence s.cycle s.cfg.aggPeriod = true <;> simp [h]

/-! The state before the dispatch. -/

/-- The state after phase 1 of the cycle. -/
def State.sensed (s : State) : State := s.beginCycle.sensePhase

/-- The state after phase 2 of the cycle. -/
def State.agged (s : State) : State := s.sensed.aggregatePhase

theorem State.beforeDispatch_eq (s : State) : s.beforeDispatch = s.agged.decodePhase := rfl

theorem State.cycleInstr_eq (s : State) : s.cycleInstr = s.agged.decodedFrame.map Frame.instr := rfl

@[simp] theorem State.beginCycle_input (s : State) : s.beginCycle.input = s.input := rfl

theorem State.sensed_eq (s : State) :
    s.sensed = { s.beginCycle with
      ch := s.sensedUpTo s.cfg.numChannels
      events := s.indicatedUpTo s.cfg.numChannels } := by
  rw [State.sensed, State.sensePhase_eq]
  rfl

@[simp] theorem State.sensed_cfg (s : State) : s.sensed.cfg = s.cfg := by rw [State.sensed_eq]; rfl
@[simp] theorem State.sensed_armed (s : State) : s.sensed.armed = s.armed := by rw [State.sensed_eq]; rfl
@[simp] theorem State.sensed_emu (s : State) : s.sensed.emu = s.emu := by rw [State.sensed_eq]; rfl
@[simp] theorem State.sensed_cycle (s : State) : s.sensed.cycle = s.cycle := by rw [State.sensed_eq]; rfl
@[simp] theorem State.sensed_ch (s : State) : s.sensed.ch = s.sensedUpTo s.cfg.numChannels := by
  rw [State.sensed_eq]
@[simp] theorem State.sensed_rx (s : State) : s.sensed.rx = s.rx ++ s.input.arrivals := by
  rw [State.sensed_eq]; rfl
@[simp] theorem State.sensed_events (s : State) :
    s.sensed.events = s.indicatedUpTo s.cfg.numChannels := by rw [State.sensed_eq]
@[simp] theorem State.sensed_restart (s : State) : s.sensed.restart = false := by
  rw [State.sensed_eq]; rfl
@[simp] theorem State.sensed_inputs (s : State) : s.sensed.inputs = s.inputs := by
  rw [State.sensed_eq]; rfl
@[simp] theorem State.sensed_freeCtr (s : State) : s.sensed.freeCtr = s.freeCtr := by
  rw [State.sensed_eq]; rfl
@[simp] theorem State.sensed_input (s : State) : s.sensed.input = s.input :=
  State.input_congr s.sensed_inputs s.sensed_freeCtr
@[simp] theorem State.sensed_draw (s : State) : s.sensed.draw = s.draw :=
  State.draw_congr s.sensed_input s.sensed_cfg
@[simp] theorem State.sensed_emulates (s : State) : s.sensed.emulates = s.emulates := by
  simp [State.emulates]

@[simp] theorem State.sensed_length (s : State) : s.sensed.ch.length = s.ch.length := by
  simp [State.sensedUpTo]

/-- One channel after phase 1 (R44, R210). -/
theorem State.sensed_chan (s : State) {k : Nat} (h : k < s.ch.length) :
    s.sensed.chan k =
      if k < s.cfg.numChannels ∧ s.cfg.inputBoundAt k = true then (s.chan k).sense s.cfg (s.sampleAt k)
      else s.chan k :=
  s.beginCycle.sensePhase_chan h

theorem State.agged_eq (s : State) :
    s.agged = { s.sensed with
      ch := s.sensed.aggregated
      emu := if onCadence s.cycle s.cfg.aggPeriod then false else s.emu
      events := s.indicatedUpTo s.cfg.numChannels ++ s.sensed.reportEvents } := by
  rw [State.agged, State.aggregatePhase_eq]
  simp

@[simp] theorem State.agged_cfg (s : State) : s.agged.cfg = s.cfg := by simp [State.agged_eq]
@[simp] theorem State.agged_armed (s : State) : s.agged.armed = s.armed := by simp [State.agged_eq]
@[simp] theorem State.agged_emu (s : State) :
    s.agged.emu = if onCadence s.cycle s.cfg.aggPeriod then false else s.emu := by simp [State.agged_eq]
@[simp] theorem State.agged_cycle (s : State) : s.agged.cycle = s.cycle := by simp [State.agged_eq]
@[simp] theorem State.agged_ch (s : State) : s.agged.ch = s.sensed.aggregated := by simp [State.agged_eq]
@[simp] theorem State.agged_rx (s : State) : s.agged.rx = s.rx ++ s.input.arrivals := by
  simp [State.agged_eq]
@[simp] theorem State.agged_events (s : State) :
    s.agged.events = s.indicatedUpTo s.cfg.numChannels ++ s.sensed.reportEvents := by
  simp [State.agged_eq]
@[simp] theorem State.agged_restart (s : State) : s.agged.restart = false := by simp [State.agged_eq]
@[simp] theorem State.agged_inputs (s : State) : s.agged.inputs = s.inputs := by simp [State.agged_eq]
@[simp] theorem State.agged_freeCtr (s : State) : s.agged.freeCtr = s.freeCtr := by simp [State.agged_eq]
@[simp] theorem State.agged_input (s : State) : s.agged.input = s.input :=
  State.input_congr s.agged_inputs s.agged_freeCtr

/-- The frame of the cycle, by the queue and the inputs alone (R120 to R123). -/
theorem State.agged_decodedFrame (s : State) :
    s.agged.decodedFrame = (takeFrame s.input (s.rx ++ s.input.arrivals)).1 := by
  simp [State.decodedFrame]

@[simp] theorem State.beforeDispatch_cfg (s : State) : s.beforeDispatch.cfg = s.cfg := by
  simp [State.beforeDispatch_eq]
@[simp] theorem State.beforeDispatch_armed (s : State) : s.beforeDispatch.armed = s.armed := by
  simp [State.beforeDispatch_eq]
@[simp] theorem State.beforeDispatch_emu (s : State) :
    s.beforeDispatch.emu = if onCadence s.cycle s.cfg.aggPeriod then false else s.emu := by
  simp [State.beforeDispatch_eq]
@[simp] theorem State.beforeDispatch_cycle (s : State) : s.beforeDispatch.cycle = s.cycle := by
  simp [State.beforeDispatch_eq]
@[simp] theorem State.beforeDispatch_ch (s : State) : s.beforeDispatch.ch = s.sensed.aggregated := by
  simp [State.beforeDispatch_eq]
@[simp] theorem State.beforeDispatch_rx (s : State) :
    s.beforeDispatch.rx = (takeFrame s.input (s.rx ++ s.input.arrivals)).2 := by
  simp [State.beforeDispatch_eq]
@[simp] theorem State.beforeDispatch_events (s : State) :
    s.beforeDispatch.events = s.indicatedUpTo s.cfg.numChannels ++ s.sensed.reportEvents
      ++ (s.agged.decodedFrame.map echoOf).getD [] := by
  simp [State.beforeDispatch_eq]
@[simp] theorem State.beforeDispatch_restart (s : State) : s.beforeDispatch.restart = false := by
  simp [State.beforeDispatch_eq]
@[simp] theorem State.beforeDispatch_inputs (s : State) : s.beforeDispatch.inputs = s.inputs := by
  simp [State.beforeDispatch_eq]
@[simp] theorem State.beforeDispatch_freeCtr (s : State) : s.beforeDispatch.freeCtr = s.freeCtr := by
  simp [State.beforeDispatch_eq]
@[simp] theorem State.beforeDispatch_input (s : State) : s.beforeDispatch.input = s.input :=
  State.input_congr s.beforeDispatch_inputs s.beforeDispatch_freeCtr

/-- The state after phase 4: the dispatch of the frame, if there is one (R112). -/
def State.afterPhase4 (s : State) : State :=
  match s.cycleInstr with
  | some i => s.beforeDispatch.dispatched i
  | none => s.beforeDispatch

/-- The one inversion lemma of `step`: under a well-formed CFG a cycle answers a next state, and that state is
phase 5 of the dispatched one; under an ill-formed CFG it answers none. -/
theorem step_next_iff (s t : State) :
    step s = .next t ↔ CfgWF s.cfg ∧ s.afterPhase4.afterDispatch = t := by
  unfold step State.afterPhase4
  cases hc : failedCheck s.cfg with
  | some c => simp [CfgWF, hc]
  | none =>
    cases hi : s.cycleInstr with
    | none => simp [CfgWF, hc, dispatchPhase]
    | some i => simp [CfgWF, hc, dispatchPhase, exec_eq]

theorem step_of_wf {s : State} (h : CfgWF s.cfg) : step s = .next s.afterPhase4.afterDispatch :=
  (step_next_iff s _).mpr ⟨h, rfl⟩

/-! Phase 5 (R114, R281). -/

@[simp] theorem State.advance_cfg (s : State) : s.advance.cfg = s.cfg := by
  unfold State.advance; split <;> rfl
@[simp] theorem State.advance_events (s : State) : s.advance.events = s.events := by
  unfold State.advance; split <;> rfl
@[simp] theorem State.advance_inputs (s : State) : s.advance.inputs = s.inputs := by
  unfold State.advance; split <;> rfl
@[simp] theorem State.advance_freeCtr (s : State) : s.advance.freeCtr = s.freeCtr := by
  unfold State.advance; split <;> rfl

theorem State.advance_of_restart {s : State} (h : s.restart = true) : s.advance = s.resetState := by
  simp [State.advance, h]

theorem State.advance_of_no_restart {s : State} (h : s.restart = false) :
    s.advance = { s with cycle := (s.cycle + 1) % s.cfg.cycleWrap } := by
  simp [State.advance, h]

@[simp] theorem State.afterDispatch_cfg (s : State) : s.afterDispatch.cfg = s.cfg := by
  simp [State.afterDispatch]
@[simp] theorem State.afterDispatch_events (s : State) : s.afterDispatch.events = s.events := by
  simp [State.afterDispatch]
@[simp] theorem State.afterDispatch_restart (s : State) : s.afterDispatch.restart = false := rfl
@[simp] theorem State.afterDispatch_inputs (s : State) : s.afterDispatch.inputs = s.inputs.tail := by
  simp [State.afterDispatch]

/-! The state after phase 4. -/

@[simp] theorem State.afterPhase4_cfg (s : State) : s.afterPhase4.cfg = s.cfg := by
  unfold State.afterPhase4; split <;> simp [State.dispatched]
@[simp] theorem State.afterPhase4_cycle (s : State) : s.afterPhase4.cycle = s.cycle := by
  unfold State.afterPhase4; split <;> simp [State.dispatched]
@[simp] theorem State.afterPhase4_ch (s : State) : s.afterPhase4.ch = s.sensed.aggregated := by
  unfold State.afterPhase4; split <;> simp [State.dispatched]
@[simp] theorem State.afterPhase4_rx (s : State) :
    s.afterPhase4.rx = (takeFrame s.input (s.rx ++ s.input.arrivals)).2 := by
  unfold State.afterPhase4; split <;> simp [State.dispatched]
@[simp] theorem State.afterPhase4_inputs (s : State) : s.afterPhase4.inputs = s.inputs := by
  unfold State.afterPhase4; split <;> simp [State.dispatched]
@[simp] theorem State.afterPhase4_freeCtr (s : State) : s.afterPhase4.freeCtr = s.freeCtr := by
  unfold State.afterPhase4; split <;> simp [State.dispatched]
@[simp] theorem State.afterPhase4_input (s : State) : s.afterPhase4.input = s.input :=
  State.input_congr s.afterPhase4_inputs s.afterPhase4_freeCtr

/-- The cycle restarts exactly when it dispatches a RESET (R170, R189). -/
theorem State.afterPhase4_restart (s : State) :
    s.afterPhase4.restart = (s.cycleInstr.map isReset).getD false := by
  unfold State.afterPhase4
  cases s.cycleInstr <;> simp [State.dispatched]

end Sys2Proof.Machine
end

