-- ==== Sys2Proof/Laws/Decode.lean ====
section
/-! SUPPORT. The payload bytes (R91, R93) and the opcode map (R96). -/

namespace Sys2Proof

@[simp] theorem payloadOf_toNat (b1 b2 : Byte) : (payloadOf b1 b2).toNat = b1.toNat * 256 + b2.toNat := by
  have h1 := b1.isLt
  have h2 := b2.isLt
  simp only [payloadOf, BitVec.toNat_ofNat]
  omega

theorem payloadHi_toNat (p : Payload) : (payloadHi p).toNat = p.toNat / 256 := by
  have := p.isLt
  simp only [payloadHi, BitVec.toNat_ofNat]
  omega

theorem payloadLo_toNat (p : Payload) : (payloadLo p).toNat = p.toNat % 256 := by
  simp only [payloadLo, BitVec.toNat_ofNat]
  omega

/-- The two payload bytes of a frame assemble to its payload. -/
theorem payloadOf_hi_lo (p : Payload) : payloadOf (payloadHi p) (payloadLo p) = p := by
  apply BitVec.eq_of_toNat_eq
  rw [payloadOf_toNat, payloadHi_toNat, payloadLo_toNat]
  omega

theorem payloadHi_of (b1 b2 : Byte) : payloadHi (payloadOf b1 b2) = b1 := by
  apply BitVec.eq_of_toNat_eq
  have := b2.isLt
  rw [payloadHi_toNat, payloadOf_toNat]
  omega

theorem payloadLo_of (b1 b2 : Byte) : payloadLo (payloadOf b1 b2) = b2 := by
  apply BitVec.eq_of_toNat_eq
  have := b2.isLt
  rw [payloadLo_toNat, payloadOf_toNat]
  omega

/-- Each row of the opcode map names a well-formed instruction whose frame has the row's opcode (R96). -/
theorem opcodeMap_row (p : Payload) :
    ∀ row ∈ opcodeMap, (row.instr p).frame = ⟨row.op, p⟩ ∧ (row.instr p).WellFormed := by
  simp [opcodeMap, Instr.frame, Instr.WellFormed, Instr.wf]

/-- A value no row has is none of the known opcodes (R97). -/
theorem opcodeMap_ops : opcodeMap.map OpcodeRow.op = knownOpcodes := rfl

/-- No two rows of the opcode map have the same opcode value (R96). -/
theorem opcodeMap_disjoint : (opcodeMap.map OpcodeRow.op).Nodup := by decide

/-- What a frame's instruction is: the row of its opcode, or UNKNOWN (R96, R97). -/
theorem Frame.instr_cases (f : Frame) :
    (∃ row ∈ opcodeMap, row.op = f.op ∧ f.instr = row.instr f.p)
      ∨ (f.op ∉ knownOpcodes ∧ f.instr = .unknown f.op f.p) := by
  unfold Frame.instr
  cases h : opcodeMap.find? fun row => row.op == f.op with
  | some row =>
    exact .inl ⟨row, List.mem_of_find?_eq_some h, by simpa using List.find?_some h, rfl⟩
  | none =>
    refine .inr ⟨fun hm => ?_, rfl⟩
    rw [← opcodeMap_ops, List.mem_map] at hm
    obtain ⟨row, hrow, hop⟩ := hm
    exact absurd hop (by simpa using List.find?_eq_none.mp h row hrow)

/-- The opcode map loses nothing: the frame of the instruction a frame names is that frame. -/
@[simp] theorem Frame.instr_frame (f : Frame) : f.instr.frame = f := by
  obtain ⟨row, hrow, hop, h⟩ | ⟨_, h⟩ := f.instr_cases
  · rw [h, (opcodeMap_row f.p row hrow).1, hop]
  · rw [h]; rfl

/-- A frame names a well-formed instruction (R99). -/
theorem Frame.instr_wellFormed (f : Frame) : f.instr.WellFormed := by
  obtain ⟨row, hrow, _, h⟩ | ⟨hop, h⟩ := f.instr_cases
  · rw [h]; exact (opcodeMap_row f.p row hrow).2
  · rw [h]; simpa [Instr.WellFormed, Instr.wf] using hop

end Sys2Proof
end

