-- ==== Sys2Proof/Laws/Mapper.lean ====
section
/-! SUPPORT. The arithmetic of the Position Mapper (R14, R141, R142): the clamp, the truncating division and the
interpolation. -/

namespace Sys2Proof.Machine

theorem clamp_comm (v a b : Int) : clamp v a b = clamp v b a := by
  unfold clamp
  omega

/-- A clamped value lies between the bounds, in whichever order they are given (R142). -/
theorem clamp_bounds (v a b : Int) : min a b ≤ clamp v a b ∧ clamp v a b ≤ max a b := by
  unfold clamp
  omega

/-- The clamp changes nothing that lies between the bounds. -/
theorem clamp_of_mem {v a b : Int} (h1 : min a b ≤ v) (h2 : v ≤ max a b) : clamp v a b = v := by
  unfold clamp
  omega

theorem clamp_mono {v w : Int} (h : v ≤ w) (a b : Int) : clamp v a b ≤ clamp w a b := by
  unfold clamp
  omega

theorem tdiv_mono {a b d : Int} (hd : 0 < d) (h : a ≤ b) : tdiv a d ≤ tdiv b d :=
  Int.tdiv_le_tdiv hd h

theorem tdiv_neg_neg (a d : Int) : tdiv (-a) (-d) = tdiv a d := by
  simp [tdiv]

@[simp] theorem tdiv_zero_left (d : Int) : tdiv 0 d = 0 := by simp [tdiv]

@[simp] theorem tdiv_mul_self {d : Int} (hd : d ≠ 0) (r : Int) : tdiv (d * r) d = r :=
  Int.mul_tdiv_cancel_left r hd

/-- The truncated share of `r`: for `0 ≤ n ≤ d` it lies between 0 and `r` (R153). -/
theorem tdiv_share {n d : Int} (hd : 0 < d) (h0 : 0 ≤ n) (h1 : n ≤ d) (r : Int) :
    min 0 r ≤ tdiv (n * r) d ∧ tdiv (n * r) d ≤ max 0 r := by
  have e0 : tdiv 0 d = 0 := tdiv_zero_left d
  have e1 : tdiv (d * r) d = r := tdiv_mul_self (by omega) r
  rcases le_total 0 r with hr | hr
  · have a1 := tdiv_mono hd (mul_nonneg h0 hr)
    have a2 := tdiv_mono hd (mul_le_mul_of_nonneg_right h1 hr)
    omega
  · have a1 := tdiv_mono hd (mul_nonpos_of_nonneg_of_nonpos h0 hr)
    have a2 := tdiv_mono hd (mul_le_mul_of_nonpos_right h1 hr)
    omega

/-- Inside its domain, in whichever order its ends are given, interpolation stays inside its range (R153). -/
theorem interp_bounds {x d0 d1 : Int} (hd : d0 ≠ d1) (h0 : min d0 d1 ≤ x) (h1 : x ≤ max d0 d1) (r0 r1 : Int) :
    min r0 r1 ≤ interp x d0 d1 r0 r1 ∧ interp x d0 d1 r0 r1 ≤ max r0 r1 := by
  unfold interp
  rcases lt_or_gt_of_ne hd with h | h
  · have := tdiv_share (n := x - d0) (d := d1 - d0) (by omega) (by omega) (by omega) (r1 - r0)
    omega
  · have := tdiv_share (n := d0 - x) (d := d0 - d1) (by omega) (by omega) (by omega) (r1 - r0)
    rw [show tdiv ((x - d0) * (r1 - r0)) (d1 - d0) = tdiv ((d0 - x) * (r1 - r0)) (d0 - d1) by
      rw [← tdiv_neg_neg, ← neg_mul]; simp]
    omega

/-- Interpolation over a rising domain follows the direction of its range (R154). -/
theorem interp_mono {x y d0 d1 : Int} (hd : d0 < d1) (h : x ≤ y) (r0 r1 : Int) :
    (r0 ≤ r1 → interp x d0 d1 r0 r1 ≤ interp y d0 d1 r0 r1)
      ∧ (r1 ≤ r0 → interp y d0 d1 r0 r1 ≤ interp x d0 d1 r0 r1) := by
  unfold interp
  have hxy : x - d0 ≤ y - d0 := by omega
  refine ⟨fun hr => ?_, fun hr => ?_⟩
  · have := tdiv_mono (d := d1 - d0) (by omega)
      (mul_le_mul_of_nonneg_right hxy (show 0 ≤ r1 - r0 by omega))
    omega
  · have := tdiv_mono (d := d1 - d0) (by omega)
      (mul_le_mul_of_nonpos_right hxy (show r1 - r0 ≤ 0 by omega))
    omega

/-! The paths of MAP (R144 to R150). -/

theorem domainClamp_of_le {raw : Int} (h : raw ≤ 1023) : domainClamp raw = raw := min_eq_left h

theorem domainClamp_of_ge {raw : Int} (h : 1023 ≤ raw) : domainClamp raw = 1023 := min_eq_right h

/-- Below the pivot HEAD_TILT takes the lower sub-range (R146). -/
theorem nativeHt_below {raw : Int} (h : raw < 512) (cfg : Config) :
    nativeHt cfg raw = nativeHtLo cfg raw := by
  unfold nativeHt
  rw [domainClamp_of_le (by omega), if_pos h]

/-- From the pivot on HEAD_TILT takes the upper sub-range (R146). -/
theorem nativeHt_above {raw : Int} (h : 512 ≤ raw) (cfg : Config) :
    nativeHt cfg raw = nativeHtHi cfg (domainClamp raw) := by
  unfold nativeHt
  exact if_neg (by unfold domainClamp; omega)

theorem nativeOf_headTilt (cfg : Config) (raw : Int) : nativeOf cfg .headTilt raw = nativeHt cfg raw := rfl

/-- A calibrated axis takes the single-range path (R144, R145). -/
theorem nativeOf_calibrated {cfg : Config} {a : Axis} {r : CalRange} (h : cfg.calRange a = some r) (raw : Int) :
    nativeOf cfg a raw = nativeSingle r raw := by
  cases a <;> simp_all [nativeOf, Config.calRange]

/-- An unmapped axis other than HEAD_TILT takes the fallback path (R144, R150). -/
theorem nativeOf_unmapped {cfg : Config} {a : Axis} (ha : a ≠ .headTilt) (h : cfg.calRange a = none) (raw : Int) :
    nativeOf cfg a raw = nativeFallback cfg raw := by
  cases a <;> simp_all [nativeOf]

end Sys2Proof.Machine
end

