-- ==== Sys2Proof/Laws/PerInstr.lean ====
section
/-! SUPPORT. Per instruction: its opcode value in the opcode map (R96), and the three bytes of its frame
(R90, R91). -/

namespace Sys2Proof.Laws.FrameBytes

/-- The opcode value of an instruction, written out from the opcode map (R96). -/
def opcodeValue : Instr → Nat
  | .idle _ => 0
  | .bodyTilt _ => 1
  | .wings _ => 2
  | .headTilt _ => 3
  | .headRotate _ => 4
  | .beak _ => 5
  | .envelope _ => 17
  | .eyes _ => 20
  | .fog _ => 23
  | .isAlive _ => 63
  | .emulateRadar _ => 101
  | .deactivate _ => 125
  | .reactivate _ => 126
  | .reset _ => 127
  | .unknown op _ => op.toNat

/-- The frame of an instruction: its opcode value, then the payload's two bytes, the high byte first. -/
def Statement (i : Instr) : Prop :=
  (encode i).map BitVec.toNat = [opcodeValue i, i.frame.p.toNat / 256, i.frame.p.toNat % 256]

theorem encode_bytes (i : Instr) (h : i.frame.op.toNat = opcodeValue i) : Statement i := by
  simp [Statement, encode, payloadHi_toNat, payloadLo_toNat, h]

theorem idle (p : Payload) : Statement (.idle p) := encode_bytes _ rfl
theorem bodyTilt (p : Payload) : Statement (.bodyTilt p) := encode_bytes _ rfl
theorem wings (p : Payload) : Statement (.wings p) := encode_bytes _ rfl
theorem headTilt (p : Payload) : Statement (.headTilt p) := encode_bytes _ rfl
theorem headRotate (p : Payload) : Statement (.headRotate p) := encode_bytes _ rfl
theorem beak (p : Payload) : Statement (.beak p) := encode_bytes _ rfl
theorem envelope (p : Payload) : Statement (.envelope p) := encode_bytes _ rfl
theorem eyes (p : Payload) : Statement (.eyes p) := encode_bytes _ rfl
theorem fog (p : Payload) : Statement (.fog p) := encode_bytes _ rfl
theorem isAlive (p : Payload) : Statement (.isAlive p) := encode_bytes _ rfl
theorem emulateRadar (p : Payload) : Statement (.emulateRadar p) := encode_bytes _ rfl
theorem deactivate (p : Payload) : Statement (.deactivate p) := encode_bytes _ rfl
theorem reactivate (p : Payload) : Statement (.reactivate p) := encode_bytes _ rfl
theorem reset (p : Payload) : Statement (.reset p) := encode_bytes _ rfl
theorem unknown (op : Byte) (p : Payload) : Statement (.unknown op p) := encode_bytes _ rfl

end Sys2Proof.Laws.FrameBytes
end

