-- ==== Sys2Proof/Laws/Step.lean ====
section
/-! SUPPORT. What a step leaves, said once: its events in phase order, and every channel (R111, R210, R222, R281). -/

namespace Sys2Proof.Machine

/-! The events of a step. -/

/-- The events of phase 4 (R170, R171). -/
def State.dispatchEvents (s : State) : List Event :=
  match s.cycleInstr with
  | some i => if s.armed || ungated i then s.beforeDispatch.effectEvents i else []
  | none => []

theorem State.afterPhase4_events (s : State) :
    s.afterPhase4.events = s.indicatedUpTo s.cfg.numChannels ++ s.sensed.reportEvents
      ++ (s.agged.decodedFrame.map echoOf).getD [] ++ s.dispatchEvents := by
  unfold State.afterPhase4 State.dispatchEvents
  cases s.cycleInstr <;> simp [State.dispatched]

/-- The events of a step: indicator, report, echo, dispatch (R111). -/
theorem step_events {s t : State} (h : step s = .next t) :
    t.events = s.indicatedUpTo s.cfg.numChannels ++ s.sensed.reportEvents
      ++ (s.agged.decodedFrame.map echoOf).getD [] ++ s.dispatchEvents := by
  obtain ⟨_, rfl⟩ := (step_next_iff s t).mp h
  rw [State.afterDispatch_events, State.afterPhase4_events]

/-! The channels of a step. -/

@[simp] theorem State.aggregated_length (s : State) : s.aggregated.length = s.ch.length := by
  unfold State.aggregated
  split <;> simp

/-- One channel after phase 2: emulated and real aggregation clear the score, and only the real one folds (R222,
R224, R225, R233). -/
theorem State.aggregated_getD (s : State) {k : Nat} (h : k < s.ch.length) :
    s.aggregated.getD k (Channel.atReset s.cfg) =
      if onCadence s.cycle s.cfg.aggPeriod then
        if s.emulates then (s.chan k).clearScore else ((s.chan k).fold s.cfg).clearScore
      else s.chan k := by
  have hk : s.chan k = s.ch[k] := by simp [State.chan, List.getD_eq_getElem?_getD, h]
  unfold State.aggregated State.scored
  rw [hk]
  by_cases hc : onCadence s.cycle s.cfg.aggPeriod = true <;> by_cases he : s.emulates = true <;>
    simp [hc, he, map_clearScore_emulated, List.getD_eq_getElem?_getD, h]

/-- A cycle that restarts leaves every channel at reset (R281). -/
theorem step_chan_of_restart {s t : State} (h : step s = .next t) (hr : s.afterPhase4.restart = true) (k : Nat) :
    t.chan k = Channel.atReset s.cfg := by
  obtain ⟨_, rfl⟩ := (step_next_iff s t).mp h
  simp [State.chan, State.afterDispatch, State.advance_of_restart hr, List.getD_eq_getElem?_getD]

/-- A cycle that does not restart leaves the channels as phase 2 left them. -/
theorem step_ch {s t : State} (h : step s = .next t) (hr : s.afterPhase4.restart = false) :
    t.ch = s.sensed.aggregated := by
  obtain ⟨_, rfl⟩ := (step_next_iff s t).mp h
  simp [State.afterDispatch, State.advance_of_no_restart hr]

theorem step_cfg {s t : State} (h : step s = .next t) : t.cfg = s.cfg := by
  obtain ⟨_, rfl⟩ := (step_next_iff s t).mp h
  simp

/-- One channel after a cycle that does not restart: sensed if it has an input, then aggregated on cadence. -/
theorem step_chan {s t : State} {k : Nat} (h : step s = .next t) (hr : s.afterPhase4.restart = false)
    (hl : k < s.ch.length) (hk : k < s.cfg.numChannels) :
    t.chan k =
      (let c := if s.cfg.inputBoundAt k = true then (s.chan k).sense s.cfg (s.sampleAt k) else s.chan k
        if onCadence s.cycle s.cfg.aggPeriod then
          if s.emulates then c.clearScore else (c.fold s.cfg).clearScore
        else c) := by
  have hs := s.sensed.aggregated_getD (k := k) (by simpa using hl)
  simp only [State.sensed_cfg, State.sensed_cycle, State.sensed_emulates, State.sensed_chan s hl, hk, true_and] at hs
  rw [State.chan, step_ch h hr, step_cfg h, hs]

end Sys2Proof.Machine
end

