-- ==== Sys2Proof/Tests/Slice0.lean ====
section
/-! SUPPORT. Tests: the smoke test of the well-formedness checks, words written out from the encoding of R91 to R96,
single steps whose expected events are those of spec/95_test_vectors.md (the vector is named at each test),
and for every statement with hypotheses a witness that meets them together. -/

namespace Sys2Proof.Tests

open Sys2Proof.Machine

/-! ## Helpers -/

/-- Every axis attached, every sample 0, the draw of section 2.7, no arrival. -/
def quiet : CycleInput where
  arrivals := []
  samples := []
  attached := ⟨true, true, true, true, true⟩
  draw := ⟨1, 9, 2, 5⟩
  wait := []
  underrun := .drop
  keepRx := true

/-- The reset state at counter value `c` with the bytes `rx` queued. -/
def at_ (c : Nat) (rx : List Byte) : State := { State.reset with cycle := c, rx := rx, inputs := [quiet] }

/-- The same, disarmed. -/
def off (c : Nat) (rx : List Byte) : State := { at_ c rx with armed := false }

/-- The state after one step, or the same state where the step answers none. -/
def after (s : State) : State :=
  match step s with
  | .next t => t
  | .fault _ => s
  | .refused _ => s

/-- The events of one step after the indicator level 0 that starts every quiet cycle. -/
def quietEvents (s : State) : Option (List Event) :=
  match (after s).events with
  | .setLevel .indicator false :: es => some es
  | _ => none

/-- A channel record. -/
def chan (hist : List Nat) (avg n : Nat) (active : Bool) (dur : Nat) : Channel := ⟨hist, avg, n, active, dur, 0⟩

/-- A channel that is closed with a duration, or open with it. -/
def held (active : Bool) (dur : Nat) : Channel := chan [0, 0, 0, 0] 0 10 active dur

/-- Channel 1 with a closed event of 7 cycles, at a cadence cycle (V-CYC-2). -/
def pending (rx : List Byte) : State :=
  { at_ 10 rx with ch := [held false 0, held false 7, held false 0, Channel.atReset Config.ex] }

/-- The state of section 2.7. -/
def emulating (d : Draw) : State :=
  { at_ 10 [] with
    emu := true
    ch := [held true 5, held false 7, held false 0, Channel.atReset Config.ex]
    inputs := [{ quiet with draw := d }] }

/-! ## Well-formedness -/

theorem smoke_unknown_with_known_opcode_is_refused : (Instr.unknown 127 0).wf = false := by decide

theorem smoke_unknown_is_accepted : (Instr.unknown 6 0).wf = true := by decide

theorem smoke_ex_is_well_formed : CfgWF Config.ex := by decide

theorem smoke_nativeSpan : failedCheck { Config.ex with nativeMin := 1023 } = some .nativeSpan := by decide

theorem smoke_rangeInNative :
    failedCheck { Config.ex with calWings := some ⟨1024, 100⟩ } = some .rangeInNative := by decide

theorem smoke_htDomain : failedCheck { Config.ex with htLoDmax := 0 } = some .htDomain := by decide

theorem smoke_envAxes : failedCheck { Config.ex with envAxisB := 6 } = some .envAxes := by decide

theorem smoke_periods : failedCheck { Config.ex with cycleWrap := 299 } = some .periods := by decide

theorem smoke_hist : failedCheck { Config.ex with histLen := 0 } = some .hist := by decide

theorem smoke_avg : failedCheck { Config.ex with avgFloor := 64 } = some .avg := by decide

theorem smoke_ref : failedCheck { Config.ex with refChannel := 4 } = some .ref := by decide

theorem smoke_widths : failedCheck { Config.ex with sampleBits := 17 } = some .widths := by decide

theorem smoke_emu : failedCheck { Config.ex with emuMainMax := 0 } = some .emu := by decide

theorem smoke_datapath : failedCheck { Config.ex with outMax := 3000000 } = some .datapath := by decide

/-! ## Decoding: words written out from R91 to R96, `oooooooo pppppppp pppppppp` -/

theorem test_decode_idle : decodeTableWord 24 0b00000000_00010010_00110100 = some (.idle 0x1234) := by decide
theorem test_decode_bodyTilt : decodeTableWord 24 0b00000001_00000011_11111111 = some (.bodyTilt 1023) := by decide
theorem test_decode_wings : decodeTableWord 24 0b00000010_00000000_00000000 = some (.wings 0) := by decide
theorem test_decode_headTilt : decodeTableWord 24 0b00000011_00000001_11111111 = some (.headTilt 511) := by decide
theorem test_decode_headRotate : decodeTableWord 24 0b00000100_00000010_00000000 = some (.headRotate 512) := by
  decide
theorem test_decode_beak : decodeTableWord 24 0b00000101_10101011_11001101 = some (.beak 43981) := by decide
theorem test_decode_envelope : decodeTableWord 24 0b00010001_00000010_01011000 = some (.envelope 600) := by decide
theorem test_decode_eyes : decodeTableWord 24 0b00010100_00000001_00000000 = some (.eyes 256) := by decide
theorem test_decode_fog : decodeTableWord 24 0b00010111_00000000_00000001 = some (.fog 1) := by decide
theorem test_decode_isAlive : decodeTableWord 24 0b00111111_00000000_00000000 = some (.isAlive 0) := by decide
theorem test_decode_emulateRadar : decodeTableWord 24 0b01100101_00000000_00000000 = some (.emulateRadar 0) := by
  decide
theorem test_decode_deactivate : decodeTableWord 24 0b01111101_00000000_00000000 = some (.deactivate 0) := by
  decide
theorem test_decode_reactivate : decodeTableWord 24 0b01111110_00000000_00000000 = some (.reactivate 0) := by
  decide
theorem test_decode_reset : decodeTableWord 24 0b01111111_00000000_00000000 = some (.reset 0) := by decide
theorem test_decode_unknown : decodeTableWord 24 0b11001000_00000000_00000111 = some (.unknown 200 7) := by decide

/-- Fewer than 3 bytes are no frame (R90). -/
theorem test_decode_rejects_a_partial_frame : decode [4, 2] = .error (.incompleteFrame 2) := by decide

/-! ## The dispatcher: one cycle at c = 1, section 2.4 -/

theorem test_idle : quietEvents (at_ 1 [0x00, 0x12, 0x34]) = some [] := by decide
theorem test_bodyTilt :
    quietEvents (at_ 1 [0x01, 0xFF, 0xFF]) = some [.echo 1 65535, .setPosition .bodyTilt 140] := by decide
theorem test_wings : quietEvents (at_ 1 [0x02, 0x00, 0x00]) = some [.echo 2 0, .setPosition .wings 158] := by decide
theorem test_headTilt :
    quietEvents (at_ 1 [0x03, 0x01, 0xFF]) = some [.echo 3 511, .setPosition .headTilt 90] := by decide
theorem test_headRotate :
    quietEvents (at_ 1 [0x04, 0x02, 0x00]) = some [.echo 4 512, .setPosition .headRotate 89] := by decide
theorem test_headRotate_unattached :
    quietEvents { at_ 1 [0x04, 0x02, 0x00] with
      inputs := [{ quiet with attached := ⟨true, true, true, false, true⟩ }] } = some [.echo 4 512] := by decide
theorem test_beak : quietEvents (at_ 1 [0x05, 0xFF, 0xFF]) = some [.echo 5 65535, .setPosition .beak 180] := by
  decide
theorem test_envelope_at_3 : quietEvents (at_ 3 [0x11, 0x02, 0x58]) =
    some [.setPosition .beak 105, .setPosition .wings 75, .setLevel .eyes true] := by decide
theorem test_envelope_at_4 : quietEvents (at_ 4 [0x11, 0x01, 0xFF]) =
    some [.setPosition .beak 89, .setLevel .eyes false] := by decide
theorem test_eyes : quietEvents (at_ 1 [0x14, 0x01, 0x00]) = some [.echo 20 256, .setLevel .eyes true] := by decide
theorem test_eyes_zero : quietEvents (at_ 1 [0x14, 0x00, 0x00]) = some [.echo 20 0, .setLevel .eyes false] := by
  decide
theorem test_fog_unbound : quietEvents (at_ 1 [0x17, 0x00, 0x01]) = some [.echo 23 1] := by decide
theorem test_fog_bound :
    quietEvents { at_ 1 [0x17, 0x00, 0x01] with cfg := { Config.ex with binFog := true } } =
      some [.echo 23 1, .setLevel .fog true] := by decide
theorem test_isAlive : quietEvents (at_ 1 [0x3F, 0x00, 0x00]) = some [.echo 63 0, .aliveAck] := by decide
theorem test_isAlive_disarmed : quietEvents (off 1 [0x3F, 0x00, 0x00]) = some [.echo 63 0] := by decide
theorem test_emulateRadar :
    quietEvents (at_ 1 [0x65, 0x00, 0x00]) = some [.echo 101 0] ∧ (after (at_ 1 [0x65, 0x00, 0x00])).emu = true := by
  decide
theorem test_emulateRadar_disarmed : (after (off 1 [0x65, 0x00, 0x00])).emu = false := by decide
theorem test_deactivate :
    quietEvents (at_ 1 [0x7D, 0x00, 0x00]) = some [.echo 125 0] ∧ (after (at_ 1 [0x7D, 0x00, 0x00])).armed = false := by
  decide
theorem test_reactivate :
    quietEvents (off 1 [0x7E, 0x00, 0x00]) = some [.echo 126 0] ∧ (after (off 1 [0x7E, 0x00, 0x00])).armed = true := by
  decide
theorem test_unknown :
    quietEvents (at_ 1 [0xC8, 0x00, 0x07]) = some [.echo 200 7, .unknownLog 200 7] := by decide
theorem test_unknown_disarmed : quietEvents (off 1 [0x06, 0x00, 0x64]) = some [.echo 6 100] := by decide

/-- V-RST-1: RX retained. -/
theorem test_reset_keeps_rx :
    quietEvents (at_ 1 [0x7F, 0x00, 0x00, 0x01]) = some [.echo 127 0, .restartReq]
      ∧ (after (at_ 1 [0x7F, 0x00, 0x00, 0x01])).rx = [0x01] := by decide

/-- V-RST-3 with the discard of V-RST-2: pending work is cleared, in the disarmed mode too. -/
theorem test_reset_clears :
    after { pending [0x7F, 0x00, 0x00, 0x01] with
      cycle := 57, armed := false, emu := true, inputs := [{ quiet with keepRx := false }] }
      = { State.reset with
          events := [.setLevel .indicator false, .echo 127 0, .restartReq] } := by decide

/-! ## The cycle, section 2.1 -/

/-- V-CYC-1. -/
theorem test_cycle_1 :
    (after (at_ 0 [0x04, 0x02, 0x00])).cycle = 1
      ∧ (after (at_ 0 [0x04, 0x02, 0x00])).ch =
        [chan [0, 0, 0, 0] 0 1 false 0, chan [0, 0, 0, 0] 0 1 false 0, chan [0, 0, 0, 0] 0 1 false 0,
          Channel.atReset Config.ex] := by decide

/-- V-CYC-2: indicator, report, echo, motion. -/
theorem test_cycle_2_phase_order :
    quietEvents (pending [0x01, 0x03, 0xFF]) =
      some [.report [0, 7, 0, 0], .echo 1 1023, .setPosition .bodyTilt 140] := by decide

/-- V-CYC-3: the wrap. -/
theorem test_cycle_3_wrap : (after (at_ 299 [])).cycle = 0 := by decide

/-! ## The decoder, section 2.3 -/

def decodeWith (i : CycleInput) (rx : List Byte) : Option Frame × List Byte := takeFrame i rx

theorem test_decoder_3 : decodeWith quiet [0x01, 0x03, 0xFF, 0x7D] = (some ⟨1, 1023⟩, [0x7D]) := by decide
theorem test_decoder_4 :
    decodeWith { quiet with wait := [0x02, 0x00] } [0x04] = (some ⟨4, 512⟩, []) := by decide
theorem test_decoder_5 : decodeWith quiet [0x04, 0x02] = (none, []) := by decide
theorem test_decoder_7 :
    decodeWith { quiet with underrun := .fill 0x55 0x7F } [0x02, 0x01] = (some ⟨2, 383⟩, []) := by decide
theorem test_decoder_9 :
    decodeWith { quiet with underrun := .fill 0xAB 0xCD } [0x05] = (some ⟨5, 43981⟩, []) := by decide
theorem test_decoder_10 : decodeWith { quiet with wait := [0x03] } [0x05] = (none, []) := by decide
theorem test_decoder_14 : decodeWith quiet [0x02, 0x00, 0x01, 0x03, 0xFF] = (some ⟨2, 1⟩, [0x03, 0xFF]) := by decide

/-! ## The mapper, section 2.2 -/

/-- The raw payloads of the table of section 2.2. -/
def rawColumn : List Payload := [0, 1, 2, 255, 511, 512, 513, 767, 1022, 1023, 1024, 65535]

theorem test_map_bodyTilt : rawColumn.map (mapAxis Config.ex .bodyTilt) =
    [35, 35, 35, 61, 87, 87, 87, 114, 140, 140, 140, 140] := by decide
theorem test_map_wings : rawColumn.map (mapAxis Config.ex .wings) =
    [158, 158, 158, 123, 88, 87, 87, 52, 17, 17, 17, 17] := by decide
theorem test_map_headTilt : rawColumn.map (mapAxis Config.ex .headTilt) =
    [52, 52, 52, 71, 90, 90, 90, 124, 158, 158, 158, 158] := by decide
theorem test_map_headRotate : rawColumn.map (mapAxis Config.ex .headRotate) =
    [17, 17, 17, 53, 89, 89, 90, 126, 162, 162, 162, 162] := by decide
theorem test_map_beak : rawColumn.map (mapAxis Config.ex .beak) =
    [0, 0, 0, 44, 89, 90, 90, 134, 179, 180, 180, 180] := by decide

/-- The truncation of WINGS at raw 2 and both sides of the pivot. -/
theorem test_native : nativeOf Config.ex .wings 2 = 899 ∧ nativeOf Config.ex .headTilt 511 = 512
    ∧ nativeOf Config.ex .headTilt 512 = 512 := by decide

/-! ## The sensor engine, section 2.5 -/

theorem test_sense_S2 : (chan [100, 100, 100, 100] 100 30 false 0).sense Config.ex 800 =
    chan [100, 100, 100, 800] 122 31 true 1 := by decide
theorem test_sense_S3 : (chan [800, 800, 800, 800] 300 40 true 5).sense Config.ex 800 =
    chan [800, 800, 800, 800] 312 41 true 6 := by decide
theorem test_sense_S4 : (chan [800, 800, 800, 800] 759 40 true 20).sense Config.ex 800 =
    chan [800, 800, 800, 800] 760 41 false 20 := by decide
theorem test_sense_S6 : ((chan [0, 792, 800, 800] 800 40 true 9).sense Config.ex 800).active = true := by decide
theorem test_sense_S7 : ((chan [0, 807, 800, 800] 800 40 true 9).sense Config.ex 800).active = false := by decide
theorem test_sense_S9 : ((chan [500, 500, 500, 500] 500 63 false 0).sense Config.ex 500).n = 32 := by decide
theorem test_sense_S10 : ((chan [800, 800, 800, 800] 100 40 true 65535).sense Config.ex 800).dur = 65535 := by decide
theorem test_sense_S14 : ((chan [100, 100, 100, 100] 100 40 false 0).sense Config.ex 140).active = false := by decide

/-! ## Aggregation and emulation, sections 2.6 and 2.7 -/

theorem test_aggregate_A2 :
    quietEvents { pending [] with ch := [held false 0, held false 3, held true 5, Channel.atReset Config.ex],
                                  inputs := [{ quiet with samples := [0, 0, 1023] }] } = some [.report [0, 3, 0, 0]] := by
  decide
theorem test_aggregate_clears : ((pending []).aggregate.ch.map Channel.dur) = [0, 0, 0, 0] := by decide
theorem test_emulate_first : (emulating ⟨0, 9, 2, 5⟩).aggregate.events = [.report [9, 5, 0, 0]] := by decide
theorem test_emulate_last : (emulating ⟨3, 9, 2, 5⟩).aggregate.events = [.report [0, 0, 2, 9]] := by decide
theorem test_emulate_outside :
    (emulating ⟨4, 9, 2, 5⟩).aggregate = { emulating ⟨4, 9, 2, 5⟩ with emu := false } := by decide
theorem test_emulate_not_permitted :
    State.events (State.aggregate { emulating ⟨0, 9, 2, 5⟩ with
      cfg := { Config.ex with emulationPermitted := false } }) = [.report [0, 7, 0, 0]] := by decide

/-! ## Witnesses: for each statement with hypotheses, states and operands that meet them -/

/-- Every channel open for 5 cycles, at a cadence cycle. -/
def open5 (rx : List Byte) : State :=
  { at_ 10 rx with ch := [held true 5, held true 5, held true 5, Channel.atReset Config.ex]
                   inputs := [{ quiet with samples := [1023, 1023, 1023] }] }

theorem witness_DecodeOfEncodeIsIdentity :
    (Instr.unknown 255 65535).WellFormed ∧ (Instr.reset 65535).WellFormed := by decide

theorem witness_EmptyTransportDecodesNothing : State.reset.rx = [] := by decide

theorem witness_CompleteFrameIsDecodedAndEchoed : (at_ 0 [0xFF, 0xFF, 0xFF]).rx = 0xFF :: 0xFF :: 0xFF :: [] := by
  decide

theorem witness_TailWait_one_byte :
    let s : State := { at_ 0 [4] with inputs := [{ quiet with wait := [2, 0] }] }
    1 ≤ s.rx.length ∧ s.rx.length < 3 ∧ s.rx ++ s.input.wait = 4 :: 2 :: 0 :: [] := by decide

theorem witness_TailWait_two_bytes :
    let s : State := { at_ 0 [4, 2] with inputs := [{ quiet with wait := [0, 9] }] }
    1 ≤ s.rx.length ∧ s.rx.length < 3 ∧ s.rx ++ s.input.wait = 4 :: 2 :: 0 :: [9] := by decide

theorem witness_Underrun_drop :
    1 ≤ (at_ 0 [4, 2]).rx.length ∧ ((at_ 0 [4, 2]).rx ++ (at_ 0 [4, 2]).input.wait).length < 3
      ∧ (at_ 0 [4, 2]).input.underrun = .drop := by decide

theorem witness_Underrun_fill :
    let s : State := { at_ 0 [5] with inputs := [{ quiet with underrun := .fill 0xAB 0xCD }] }
    1 ≤ s.rx.length ∧ (s.rx ++ s.input.wait).length < 3 ∧ s.input.underrun = .fill 0xAB 0xCD := by decide

/-- A step of a frame that is echoed, of IDLE, of ENVELOPE, and of no frame. -/
theorem witness_CycleEchoesItsFrame :
    step (at_ 0 [4, 2, 0]) = .next (after (at_ 0 [4, 2, 0])) ∧ step (at_ 0 [0, 0, 0]) = .next (after (at_ 0 [0, 0, 0]))
      ∧ step (at_ 0 [17, 0, 0]) = .next (after (at_ 0 [17, 0, 0])) ∧ step (at_ 0 []) = .next (after (at_ 0 [])) :=
  ⟨rfl, rfl, rfl, rfl⟩

theorem witness_StepRunsDecodedInstr :
    CfgWF (at_ 0 [4, 2, 0, 7]).cfg ∧ (at_ 0 [4, 2, 0, 7]).rx ++ (at_ 0 [4, 2, 0, 7]).input.arrivals = [4, 2, 0, 7]
      ∧ decode [4, 2, 0, 7] = .ok (.headRotate 512, [7]) := by decide

/-- A frame completed in the tail wait (D-4 of section 2.3), one filled after its expiry (D-7), and none (D-5). -/
theorem witness_StepRunsDecodedInstr_tail_wait :
    CfgWF Config.ex
      ∧ State.cycleInstr { at_ 1 [4] with inputs := [{ quiet with wait := [2, 0] }] } = some (.headRotate 512)
      ∧ State.cycleInstr { at_ 1 [2, 1] with inputs := [{ quiet with underrun := .fill 0x55 0x7F }] } = some (.wings 383)
      ∧ (at_ 1 [4, 2]).cycleInstr = none := by decide

theorem witness_IllFormedConfigIsRefusedByName :
    cfgCheckHolds ({ State.reset with cfg := { Config.ex with nativeMax := 0 } } : State).cfg .nativeSpan = false := by
  decide

theorem witness_EveryCycleCompletes : CfgWF State.reset.cfg := by decide

/-- Also of EventsFollowThePhaseOrder: a step from an armed state. -/
theorem witness_NoCycleWritesTheConfig :
    step (pending [1, 3, 0xFF]) = .next (after (pending [1, 3, 0xFF])) := rfl

/-- The two clauses: a restart, and the wrap. -/
theorem witness_CycleCounterAdvances_restart :
    step (at_ 299 [127, 0, 0]) = .next (after (at_ 299 [127, 0, 0]))
      ∧ (at_ 299 [127, 0, 0]).cycleInstr = some (.reset 0) := ⟨rfl, by decide⟩

theorem witness_CycleCounterAdvances_wrap :
    step (at_ 299 []) = .next (after (at_ 299 [])) ∧ (at_ 299 []).cycleInstr = none
      ∧ (at_ 299 []).cycle < (at_ 299 []).cfg.cycleWrap := ⟨rfl, by decide, by decide⟩

/-- One state with a motion frame, armed; the other disarmed, with another frame; neither restarts. -/
theorem witness_CommandsDoNotReachSensingOfTheirCycle :
    ({ pending [101, 0, 0] with armed := false } : State).ch = (pending [1, 3, 0xFF]).ch
      ∧ (pending [101, 0, 0]).input.draw = (pending [1, 3, 0xFF]).input.draw
      ∧ step { pending [101, 0, 0] with armed := false } = .next (after { pending [101, 0, 0] with armed := false })
      ∧ step (pending [1, 3, 0xFF]) = .next (after (pending [1, 3, 0xFF]))
      ∧ (pending [1, 3, 0xFF]).cycleInstr = some (.bodyTilt 1023)
      ∧ State.cycleInstr { pending [101, 0, 0] with armed := false } = some (.emulateRadar 0) :=
  ⟨by decide, by decide, rfl, rfl, by decide, by decide⟩

/-- Two states with one queue and different channels, counters and samples. -/
theorem witness_SensorsDoNotReachModeOrTransport :
    (open5 [125, 0, 0]).rx = (at_ 1 [125, 0, 0]).rx
      ∧ (open5 [125, 0, 0]).input.samples ≠ (at_ 1 [125, 0, 0]).input.samples
      ∧ step (open5 [125, 0, 0]) = .next (after (open5 [125, 0, 0]))
      ∧ step (at_ 1 [125, 0, 0]) = .next (after (at_ 1 [125, 0, 0])) :=
  ⟨by decide, by decide, rfl, rfl⟩

/-- Also of EveryEventOfACycleIsLegal: a cycle with an indicator level, a report, an echo and a motion write. -/
theorem witness_StepKeepsInvariant :
    (pending [1, 3, 0xFF]).Inv ∧ step (pending [1, 3, 0xFF]) = .next (after (pending [1, 3, 0xFF]))
      ∧ Event.setPosition .bodyTilt 140 ∈ (after (pending [1, 3, 0xFF])).events
      ∧ Event.report [0, 7, 0, 0] ∈ (after (pending [1, 3, 0xFF])).events := ⟨by decide, rfl, by decide, by decide⟩

theorem witness_EveryEventOfACycleIsLegal_unknown :
    (at_ 0 [6, 0, 100]).Inv ∧ step (at_ 0 [6, 0, 100]) = .next (after (at_ 0 [6, 0, 100]))
      ∧ Event.unknownLog 6 100 ∈ (after (at_ 0 [6, 0, 100])).events := ⟨by decide, rfl, by decide⟩

theorem witness_PowerOnMeetsInvariant : CfgWF Config.ex := by decide

theorem witness_DisarmedGateDropsCommands :
    (off 1 [101, 0, 0]).armed = false ∧ step (off 1 [101, 0, 0]) = .next (after (off 1 [101, 0, 0]))
      ∧ (off 1 [101, 0, 0]).cycleInstr = some (.emulateRadar 0)
      ∧ (Instr.emulateRadar 0).frame.op ≠ 0 ∧ (Instr.emulateRadar 0).frame.op ≠ 17 :=
  ⟨by decide, rfl, by decide, by decide, by decide⟩

/-- The three clauses: a dispatch that changes the mode, the flag, the restart flag. -/
theorem witness_DispatchFrame :
    exec (.deactivate 0) State.reset = .next { State.reset with armed := false } ∧ State.reset.armed ≠ false
      ∧ exec (.emulateRadar 0) State.reset = .next { State.reset with emu := true } ∧ State.reset.emu ≠ true
      ∧ exec (.reset 0) State.reset = .next { State.reset with events := [.restartReq], restart := true }
      ∧ State.reset.restart ≠ true := ⟨rfl, by decide, rfl, by decide, rfl, by decide⟩

theorem witness_EnvelopeDrivesAxesThenOutput : CfgWF (at_ 3 []).cfg := by decide

theorem witness_ArmingCommandsSetTheMode : (off 0 []).armed = false ∧ (at_ 0 []).armed = true := by decide

theorem witness_ModeTransitions_deactivate :
    step (at_ 1 [125, 0, 0]) = .next (after (at_ 1 [125, 0, 0]))
      ∧ (at_ 1 [125, 0, 0]).cycleInstr = some (.deactivate 0) := ⟨rfl, by decide⟩

theorem witness_ModeTransitions_reactivate :
    step (off 1 [126, 0, 0]) = .next (after (off 1 [126, 0, 0]))
      ∧ (off 1 [126, 0, 0]).cycleInstr = some (.reactivate 0) := ⟨rfl, by decide⟩

theorem witness_ModeTransitions_reset :
    step (off 1 [127, 0, 0]) = .next (after (off 1 [127, 0, 0]))
      ∧ (off 1 [127, 0, 0]).cycleInstr = some (.reset 0) := ⟨rfl, by decide⟩

theorem witness_ModeTransitions_kept :
    step (off 1 [1, 0, 0]) = .next (after (off 1 [1, 0, 0]))
      ∧ (off 1 [1, 0, 0]).cycleInstr = some (.bodyTilt 0) := ⟨rfl, by decide⟩

theorem witness_DisarmedCycleCallsOnlyTheIndicator :
    step (off 1 [1, 0, 0]) = .next (after (off 1 [1, 0, 0])) ∧ (off 1 [1, 0, 0]).armed = false
      ∧ Event.setLevel .indicator false ∈ (after (off 1 [1, 0, 0])).events
      ∧ (Event.setLevel .indicator false).isSinkCall = true := ⟨rfl, by decide, by decide, by decide⟩

theorem witness_CommandResetRestoresPowerOn_retained :
    step (off 57 [127, 0, 0, 1]) = .next (after (off 57 [127, 0, 0, 1]))
      ∧ (off 57 [127, 0, 0, 1]).cycleInstr = some (.reset 0) ∧ (off 57 [127, 0, 0, 1]).input.keepRx = true :=
  ⟨rfl, by decide, by decide⟩

theorem witness_CommandResetRestoresPowerOn_discarded :
    step { off 57 [127, 0, 0, 1] with inputs := [{ quiet with keepRx := false }] } =
        .next (after { off 57 [127, 0, 0, 1] with inputs := [{ quiet with keepRx := false }] })
      ∧ State.cycleInstr { off 57 [127, 0, 0, 1] with inputs := [{ quiet with keepRx := false }] } = some (.reset 0)
      ∧ (State.input { off 57 [127, 0, 0, 1] with inputs := [{ quiet with keepRx := false }] }).keepRx = false :=
  ⟨rfl, by decide, by decide⟩

theorem witness_FirstCycleAfterResetReportsNothing :
    (at_ 0 [4, 2, 0]).emu = false ∧ (at_ 0 [4, 2, 0]).ch = (State.powerOn (at_ 0 [4, 2, 0]).cfg).ch
      ∧ step (at_ 0 [4, 2, 0]) = .next (after (at_ 0 [4, 2, 0]))
      ∧ Event.echo 4 512 ∈ (after (at_ 0 [4, 2, 0])).events := ⟨by decide, by decide, rfl, by decide⟩

/-- The clauses of the paths: a calibrated axis, an unmapped one, and both sides of the pivot. -/
theorem witness_MapFollowsItsPath :
    Config.ex.calRange .bodyTilt = some ⟨200, 800⟩ ∧ Config.ex.calRange .beak = none
      ∧ (511 : Payload).toNat < 512 ∧ 512 ≤ (512 : Payload).toNat := by decide

/-- Also of MapperFitsA32BitDatapath: the same hypotheses. -/
theorem witness_MappedValueIsInRange :
    CfgWF Config.ex ∧ Config.ex.calRange .wings = some ⟨900, 100⟩ ∧ (511 : Payload).toNat < 512
      ∧ 512 ≤ (512 : Payload).toNat := by decide

theorem witness_NativeValueIsMonotone :
    (1022 : Payload).toNat ≤ (1023 : Payload).toNat ∧ (⟨200, 800⟩ : CalRange).r0 ≤ (⟨200, 800⟩ : CalRange).r1
      ∧ (⟨900, 100⟩ : CalRange).r1 < (⟨900, 100⟩ : CalRange).r0 := by decide

theorem witness_NativeValueIsMonotone_headTilt :
    CfgWF Config.ex ∧ Config.ex.htLo.r0 ≤ Config.ex.htLo.r1 ∧ Config.ex.htHi.r0 ≤ Config.ex.htHi.r1
      ∧ (511 : Int) ≤ 512 := by decide

theorem witness_NativeValueIsMonotone_headTilt_reversed :
    CfgWF { Config.ex with htLo := ⟨512, 300⟩, htHi := ⟨900, 512⟩ }
      ∧ ({ Config.ex with htLo := ⟨512, 300⟩ } : Config).htLo.r1 < ({ Config.ex with htLo := ⟨512, 300⟩ } : Config).htLo.r0
      ∧ ({ Config.ex with htHi := ⟨900, 512⟩ } : Config).htHi.r1 < ({ Config.ex with htHi := ⟨900, 512⟩ } : Config).htHi.r0 := by
  decide

theorem witness_InterpolationEndsAreExact : (0 : Int) ≠ 1023 ∧ (1023 : Int) ≠ 0 := by decide

theorem witness_HeadTiltReachesItsExtremes :
    CfgWF Config.ex ∧ (0 : Payload).toNat = 0 ∧ 1023 ≤ (1023 : Payload).toNat ∧ 1023 ≤ (65535 : Payload).toNat := by
  decide

/-- The counter one below the cap, and one below that. -/
theorem witness_SenseUpdatesHistoryAverageAndCounter :
    let s : State := { at_ 1 [] with ch := [chan [500, 500, 500, 500] 500 63 false 0,
      chan [500, 500, 500, 500] 500 62 false 0, held false 0, Channel.atReset Config.ex] }
    s.Inv ∧ step s = .next (after s) ∧ s.cycleInstr = none ∧ 1 < s.cfg.numChannels
      ∧ s.cfg.inputBoundAt 0 = true ∧ s.cfg.inputBoundAt 1 = true ∧ s.cfg.avgRule = .floorDivision
      ∧ (s.chan 0).n + 1 = s.cfg.avgCap ∧ (s.chan 1).n + 1 ≠ s.cfg.avgCap :=
  ⟨by decide, rfl, by decide, by decide, by decide, by decide, by decide, by decide, by decide⟩

/-- The four clauses, at the thresholds: 41 opens (S8), a deviation counts (S3), 40 closes (S4), a gradient of 8 holds
(S6). -/
theorem witness_DetectionOpensCountsClosesHolds :
    (chan [500, 500, 500, 500] 459 50 false 0).devOf Config.ex 500 = Config.ex.noiseThreshold + 1
      ∧ Config.ex.noiseThreshold < (chan [800, 800, 800, 800] 300 40 true 5).devOf Config.ex 800
      ∧ (chan [800, 800, 800, 800] 759 40 true 20).devOf Config.ex 800 = Config.ex.noiseThreshold
      ∧ ((chan [800, 800, 800, 800] 759 40 true 20).gradOf 800).natAbs < Config.ex.endThreshold
      ∧ (chan [0, 792, 800, 800] 800 40 true 9).devOf Config.ex 800 ≤ Config.ex.noiseThreshold
      ∧ ((chan [0, 792, 800, 800] 800 40 true 9).gradOf 800).natAbs = Config.ex.endThreshold := by decide

theorem witness_AverageStaysBetween :
    Config.ex.avgRule = .floorDivision ∧ (Channel.atReset Config.ex).n = 0 := by decide

theorem witness_CounterStaysBelowCap :
    CfgWF Config.ex ∧ (chan [] 0 63 false 0).n < Config.ex.avgCap
      ∧ Config.ex.avgFloor ≤ (chan [] 0 63 false 0).n := by decide

theorem witness_IndicatorShowsTheReferenceChannel :
    (open5 []).Inv ∧ step (open5 []) = .next (after (open5 []))
      ∧ (open5 []).cfg.inputBoundAt (open5 []).cfg.refChannel = true ∧ (open5 []).cfg.binIndicator = true :=
  ⟨by decide, rfl, by decide, by decide⟩

/-- The reference channel without an input, and an output that is not bound; an ENVELOPE may still drive it. -/
theorem witness_Indicator_without_input :
    let s : State := { at_ 1 [17, 2, 0] with
      cfg := { Config.ex with inputBound := [false, true, true, false], envOutput := .indicator } }
    s.Inv ∧ step s = .next (after s) ∧ s.cfg.inputBoundAt s.cfg.refChannel = false
      ∧ Event.setLevel .indicator true ∈ (after s).events := ⟨by decide, rfl, by decide, by decide⟩

theorem witness_Indicator_unbound :
    let s : State := { at_ 1 [] with cfg := { Config.ex with binIndicator := false } }
    s.Inv ∧ step s = .next (after s) ∧ s.cfg.binIndicator = false := ⟨by decide, rfl, by decide⟩

theorem witness_ConstantChannelNeverBecomesActive :
    CfgWF Config.ex ∧ Config.ex.avgRule = .floorDivision ∧ 1 < Config.ex.numChannels
      ∧ Config.ex.inputBoundAt 1 = true
      ∧ (∀ i ∈ [{ quiet with samples := [0, 700] }], i.samples.getD 1 0 % 2 ^ Config.ex.sampleBits = 700)
      ∧ core.run 1 { State.powerOn Config.ex with rx := [4, 2, 0], inputs := [{ quiet with samples := [0, 700] }] } =
        .next (after { State.powerOn Config.ex with rx := [4, 2, 0], inputs := [{ quiet with samples := [0, 700] }] }) :=
  ⟨by decide, by decide, by decide, by decide, by decide, rfl⟩

theorem witness_RisingGapStaysAboveFloor :
    Config.ex.avgRule = .floorDivision ∧ Config.ex.avgFloor ≤ (chan [] 768 32 false 0).n
      ∧ (chan [] 768 32 false 0).avg + Config.ex.avgFloor ≤ 800 := by decide

theorem witness_ReportsOnlyOnCadence :
    step (pending []) = .next (after (pending [])) ∧ Event.report [0, 7, 0, 0] ∈ (after (pending [])).events
      ∧ (Event.report [0, 7, 0, 0]).isReport = true := ⟨rfl, by decide, by decide⟩

theorem witness_RealAggregationFoldsReportsAndClears :
    (pending []).emu = false
      ∧ ({ pending [] with cfg := { Config.ex with emulationPermitted := false }, emu := true } :
          State).cfg.emulationPermitted = false := by decide

theorem witness_EmulatedAggregationReportsTheDraw :
    let s := emulating ⟨5, 255, 0, 255⟩
    s.emu = true ∧ s.cfg.emulationPermitted = true ∧ s.ch.length = s.cfg.numChannels ∧ (∀ c ∈ s.ch, c.score = 0)
      ∧ 1 ≤ s.cfg.emuIndexSpan ∧ 1 ≤ s.cfg.emuMainMax ∧ s.input.draw.idx < s.cfg.emuIndexSpan
      ∧ 1 ≤ s.input.draw.main ∧ s.input.draw.main ≤ s.cfg.emuMainMax
      ∧ s.input.draw.left ≤ s.cfg.emuNeighborMax ∧ s.input.draw.right ≤ s.cfg.emuNeighborMax := by decide

theorem witness_OnlyOpenEventsSurviveARealAggregation :
    (open5 []).Inv ∧ step (open5 []) = .next (after (open5 [])) ∧ (open5 []).cycle % (open5 []).cfg.aggPeriod = 0
      ∧ (open5 []).emu = false ∧ 2 < (open5 []).cfg.numChannels ∧ 0 < ((after (open5 [])).chan 2).dur :=
  ⟨by decide, rfl, by decide, by decide, by decide, by decide⟩

theorem witness_EmulationFlag_set :
    step (at_ 10 [101, 0, 0]) = .next (after (at_ 10 [101, 0, 0])) ∧ (at_ 10 [101, 0, 0]).armed = true
      ∧ (at_ 10 [101, 0, 0]).cycleInstr = some (.emulateRadar 0) := ⟨rfl, by decide, by decide⟩

theorem witness_EmulationFlag_restart :
    step (at_ 10 [127, 0, 0]) = .next (after (at_ 10 [127, 0, 0]))
      ∧ (at_ 10 [127, 0, 0]).cycleInstr = some (.reset 0) := ⟨rfl, by decide⟩

/-- A disarmed EMULATE_RADAR in an aggregating cycle, and a cycle without a frame in another. -/
theorem witness_EmulationFlag_cleared_or_kept :
    step (off 10 [101, 0, 0]) = .next (after (off 10 [101, 0, 0])) ∧ (off 10 [101, 0, 0]).armed = false
      ∧ (off 10 [101, 0, 0]).cycleInstr = some (.emulateRadar 0)
      ∧ step { at_ 11 [] with emu := true } = .next (after { at_ 11 [] with emu := true })
      ∧ State.cycleInstr { at_ 11 [] with emu := true } = none := ⟨rfl, by decide, by decide, rfl, by decide⟩

/-- In a real aggregation channel 1 is folded (A1); the same channel opens on a sample of 1023. -/
theorem witness_SenseUpdatesActiveAndDuration :
    let s : State := { pending [] with inputs := [{ quiet with samples := [0, 0, 1023] }] }
    s.Inv ∧ step s = .next (after s) ∧ s.cycleInstr = none ∧ s.cfg.inputBoundAt 1 = true
      ∧ s.cycle % s.cfg.aggPeriod = 0 ∧ s.emu = false ∧ (s.chan 1).dur = 7 ∧ ((after s).chan 1).dur = 0
      ∧ ((after s).chan 2).active = true ∧ ((after s).chan 2).dur = 1 :=
  ⟨by decide, rfl, by decide, by decide, by decide, by decide, by decide, by decide, by decide, by decide⟩

/-- An emulated aggregation keeps the durations of section 2.7 (the open channel closes on its sample of 0). -/
theorem witness_SenseUpdatesActiveAndDuration_emulated :
    (emulating ⟨1, 9, 2, 5⟩).Inv ∧ step (emulating ⟨1, 9, 2, 5⟩) = .next (after (emulating ⟨1, 9, 2, 5⟩))
      ∧ (emulating ⟨1, 9, 2, 5⟩).cycleInstr = none
      ∧ (after (emulating ⟨1, 9, 2, 5⟩)).ch.map Channel.dur = [5, 7, 0, 0] := ⟨by decide, rfl, by decide, by decide⟩

/-- The three clauses: a real aggregation, an emulated one on the last channel, a cycle off the cadence. -/
theorem witness_CadenceCyclesReportWhatTheyFind :
    (pending []).Inv ∧ step (pending []) = .next (after (pending []))
      ∧ (pending []).cycle % (pending []).cfg.aggPeriod = 0 ∧ (pending []).emu = false
      ∧ Event.report [0, 7, 0, 0] ∈ (after (pending [])).events := ⟨by decide, rfl, by decide, by decide, by decide⟩

theorem witness_CadenceCyclesReportWhatTheyFind_emulated :
    (emulating ⟨3, 9, 2, 5⟩).Inv ∧ step (emulating ⟨3, 9, 2, 5⟩) = .next (after (emulating ⟨3, 9, 2, 5⟩))
      ∧ (emulating ⟨3, 9, 2, 5⟩).emu = true ∧ (emulating ⟨3, 9, 2, 5⟩).cfg.emulationPermitted = true
      ∧ Event.report [0, 0, 2, 9] ∈ (after (emulating ⟨3, 9, 2, 5⟩)).events :=
  ⟨by decide, rfl, by decide, by decide, by decide⟩

theorem witness_CadenceCyclesReportWhatTheyFind_off_cadence :
    (at_ 11 []).Inv ∧ step (at_ 11 []) = .next (after (at_ 11 []))
      ∧ (at_ 11 []).cycle % (at_ 11 []).cfg.aggPeriod ≠ 0 := ⟨by decide, rfl, by decide⟩

/-- Channel 0 at reset, and channel 1 with the average 700, both with their constant sample (L1-5). -/
theorem witness_ConstantSampleKeepsChannelInactive :
    let s : State := { at_ 1 [] with
      ch := [Channel.atReset Config.ex, chan [0, 0, 0, 700] 700 1 false 0, held false 0, Channel.atReset Config.ex]
      inputs := [{ quiet with samples := [700, 700] }] }
    s.Inv ∧ s.cfg.avgRule = .floorDivision ∧ 1 < s.cfg.numChannels ∧ s.cfg.inputBoundAt 0 = true
      ∧ s.cfg.inputBoundAt 1 = true ∧ s.sampleAt 0 = 700 ∧ s.sampleAt 1 = 700
      ∧ (s.chan 0).active = false ∧ (s.chan 0).dur = 0 ∧ (s.chan 0).n = 0
      ∧ (s.chan 1).active = false ∧ (s.chan 1).dur = 0 ∧ (s.chan 1).avg = 700 ∧ step s = .next (after s) :=
  ⟨by decide, by decide, by decide, by decide, by decide, by decide, by decide, by decide, by decide, by decide,
    by decide, by decide, by decide, rfl⟩

end Sys2Proof.Tests
end

/-! The invariant of the state (R10, R32 to R45): each operation on one channel record keeps `Channel.Inv`, so every
step keeps `State.Inv`. -/

namespace Sys2Proof.Machine

/-! What a sample writes stays within the registers. -/

/-- The duration register keeps its width in every case of detection (R42, R219). -/
theorem durAfter_lt {cfg : Config} {dur : Nat} (hb : 1 ≤ cfg.durationBits) (hd : dur < 2 ^ cfg.durationBits)
    (d : Detection) : durAfter cfg dur d < 2 ^ cfg.durationBits := by
  cases d with
  | opens => exact Nat.one_lt_two_pow (by omega)
  | counts => exact sat_lt _ _
  | closes => exact hd
  | holds => exact hd

/-- An event still active after a sample has lasted at least one cycle (R216). -/
theorem one_le_durAfter {cfg : Config} {active : Bool} {dur : Nat} (hb : 1 ≤ cfg.durationBits)
    (hd : active = true → 1 ≤ dur) (d : Detection) (ha : activeAfter active d = true) :
    1 ≤ durAfter cfg dur d := by
  cases d with
  | opens => exact le_rfl
  | counts => exact sat_pos hb (Nat.succ_pos dur)
  | closes => cases ha
  | holds => exact hd ha

/-- A push keeps the number of retained samples (R38, R211). -/
theorem histPush_length {hist : List Nat} (h : 1 ≤ hist.length) (v : Nat) :
    (histPush hist v).length = hist.length := by
  simp only [histPush, List.length_append, List.length_drop, List.length_singleton]
  omega

/-- After a push every retained sample is an earlier one or the new one (R211). -/
theorem mem_histPush {hist : List Nat} {v x : Nat} (h : x ∈ histPush hist v) : x ∈ hist ∨ x = v := by
  rcases List.mem_append.mp h with h | h
  · exact .inl (List.mem_of_mem_drop h)
  · exact .inr (List.mem_singleton.mp h)

/-! One channel record. -/

/-- A channel at reset meets the invariant, with or without an input (R281). -/
theorem Channel.inv_atReset {cfg : Config} (h : CfgWF cfg) (bound : Bool) :
    Channel.Inv cfg bound (Channel.atReset cfg) := by
  have hcap : 0 < cfg.avgCap := h.avg.1.trans h.avg.2
  refine ⟨List.length_replicate, fun x hx => ?_, Nat.two_pow_pos _, hcap, Nat.two_pow_pos _, rfl, nofun,
    fun _ => rfl⟩
  rw [List.eq_of_mem_replicate hx]
  exact Nat.two_pow_pos _

/-- SENSE of a channel with an input keeps its invariant (R210 to R219). -/
theorem Channel.Inv.sense {cfg : Config} {c : Channel} (hc : Channel.Inv cfg true c) (h : CfgWF cfg) {v : Nat}
    (hv : v < 2 ^ cfg.sampleBits) : Channel.Inv cfg true (c.sense cfg v) := by
  obtain ⟨hlen, hhist, havg, hn, hdur, hscore, hactive, -⟩ := hc
  obtain ⟨-, -, hbits, -⟩ := h.widths
  have hlen1 : 1 ≤ c.hist.length := hlen ▸ h.hist
  refine ⟨(histPush_length hlen1 v).trans hlen, fun x hx => ?_, avgUpdate_lt havg hv c.n,
    countNext_lt h.avg.2 hn, durAfter_lt hbits hdur _, hscore, one_le_durAfter hbits hactive _, nofun⟩
  rcases mem_histPush hx with hx | rfl
  · exact hhist x hx
  · exact hv

/-- The clear keeps the invariant: between cycles there is no score to clear (R45, R224). -/
theorem Channel.Inv.clearScore {cfg : Config} {bound : Bool} {c : Channel} (hc : Channel.Inv cfg bound c) :
    Channel.Inv cfg bound c.clearScore := by
  obtain ⟨-, -, -, -, -, hscore, -⟩ := id hc
  rwa [Channel.clearScore_of_zero hscore]

/-- The fold leaves a channel at reset alone: it has no duration to fold (R222). -/
theorem Channel.fold_atReset (cfg : Config) : (Channel.atReset cfg).fold cfg = Channel.atReset cfg := by
  simp [Channel.fold, Channel.atReset]

/-- A real aggregation writes the duration and the score of a channel and nothing else (R222, R224). -/
theorem Channel.clearScore_fold_eq (cfg : Config) (c : Channel) :
    (c.fold cfg).clearScore =
      { c with dur := if c.active = false ∧ 0 < c.dur then 0 else c.dur, score := 0 } := by
  simp [Channel.clearScore, Channel.fold_dur]

/-- The real aggregation of a channel keeps its invariant: the fold clears the duration of a closed event only, and
what it adds to the score is cleared (R222, R224). -/
theorem Channel.Inv.clearScore_fold {cfg : Config} {bound : Bool} {c : Channel} (hc : Channel.Inv cfg bound c) :
    Channel.Inv cfg bound (c.fold cfg).clearScore := by
  obtain ⟨hlen, hhist, havg, hn, hdur, -, hactive, hunbound⟩ := hc
  have hreset (hb : bound = false) : (c.fold cfg).clearScore = Channel.atReset cfg := by
    rw [hunbound hb, Channel.fold_atReset]
    exact Channel.clearScore_of_zero rfl
  rw [Channel.clearScore_fold_eq] at hreset ⊢
  by_cases hclosed : c.active = false ∧ 0 < c.dur
  · simp only [if_pos hclosed] at hreset ⊢
    exact ⟨hlen, hhist, havg, hn, Nat.two_pow_pos _, rfl, by simp [hclosed.1], hreset⟩
  · simp only [if_neg hclosed] at hreset ⊢
    exact ⟨hlen, hhist, havg, hn, hdur, rfl, hactive, hreset⟩

/-- Phase 1 of one channel keeps its invariant: a channel without an input is not touched (R44, R210). -/
theorem Channel.Inv.sense_if_bound {cfg : Config} {bound : Bool} {c : Channel} (hc : Channel.Inv cfg bound c)
    (h : CfgWF cfg) {v : Nat} (hv : v < 2 ^ cfg.sampleBits) :
    Channel.Inv cfg bound (if bound = true then c.sense cfg v else c) := by
  cases bound with
  | true => exact hc.sense h hv
  | false => exact hc

/-! The fields of the state after a step. -/

/-- A step leaves one record per channel (R37). -/
theorem step_ch_length {s t : State} (h : step s = .next t) (hl : s.ch.length = s.cfg.numChannels) :
    t.ch.length = s.cfg.numChannels := by
  obtain ⟨_, rfl⟩ := (step_next_iff s t).mp h
  cases hr : s.afterPhase4.restart with
  | true => simp [State.afterDispatch, State.advance_of_restart hr]
  | false => simp [State.afterDispatch, State.advance_of_no_restart hr, hl]

/-- A step leaves the counter below its wrap (R35, R114, R281). -/
theorem step_cycle_lt {s t : State} (h : step s = .next t) : t.cycle < s.cfg.cycleWrap := by
  obtain ⟨hwf, rfl⟩ := (step_next_iff s t).mp h
  obtain ⟨-, -, (hwrap : 0 < s.cfg.cycleWrap), -⟩ := hwf.periods
  cases hr : s.afterPhase4.restart with
  | true => simpa [State.afterDispatch, State.advance_of_restart hr] using hwrap
  | false =>
    simpa [State.afterDispatch, State.advance_of_no_restart hr] using Nat.mod_lt (s.cycle + 1) hwrap

/-- A step leaves no restart pending (R111). -/
theorem step_restart {s t : State} (h : step s = .next t) : t.restart = false := by
  obtain ⟨_, rfl⟩ := (step_next_iff s t).mp h
  exact State.afterDispatch_restart _

/-- A step keeps the invariant of every channel, whether it restarts, aggregates or only senses. -/
theorem step_keeps_channelInv {s t : State} (h : step s = .next t) (hs : s.Inv) {k : Nat}
    (hk : k < s.cfg.numChannels) : Channel.Inv s.cfg (s.cfg.inputBoundAt k) (t.chan k) := by
  obtain ⟨hwf, -, hlen, hchan, -⟩ := hs
  cases hr : s.afterPhase4.restart with
  | true =>
    rw [step_chan_of_restart h hr]
    exact Channel.inv_atReset hwf _
  | false =>
    have hsensed := (hchan k hk).sense_if_bound hwf (s.sampleAt_lt k)
    rw [step_chan h hr (hlen ▸ hk) hk]
    dsimp only
    by_cases hcad : onCadence s.cycle s.cfg.aggPeriod = true
    · rw [if_pos hcad]
      by_cases hemu : s.emulates = true
      · rw [if_pos hemu]
        exact hsensed.clearScore
      · rw [if_neg hemu]
        exact hsensed.clearScore_fold
    · rw [if_neg hcad]
      exact hsensed

/-- Settles O17: each conjunct of the invariant by the lemma of its part of the state. -/
theorem stepKeepsInvariant : Obligations.StepKeepsInvariant := by
  intro s t hs h
  obtain ⟨hwf, -, hlen, -, -⟩ := id hs
  unfold State.Inv
  rw [step_cfg h]
  exact ⟨hwf, step_cycle_lt h, step_ch_length h hlen, fun _ hk => step_keeps_channelInv h hs hk, step_restart h⟩

end Sys2Proof.Machine

/-! The configuration, the emulation flag and the durations over a step (R34, R36, R46). -/

namespace Sys2Proof.Machine

/-- Settles O12: the inversion lemma of `step`, read at the field `cfg`. -/
theorem noCycleWritesTheConfig : Obligations.NoCycleWritesTheConfig :=
  fun _ _ h => step_cfg h

/-! The emulation flag. -/

/-- A cadence condition is divisibility of the counter (R18). -/
theorem onCadence_iff (c period : Nat) : onCadence c period = true ↔ c % period = 0 :=
  decide_eq_true_iff

theorem isReset_iff (i : Instr) : isReset i = true ↔ ∃ p, i = .reset p := by
  cases i <;> simp [isReset]

theorem isEmulate_iff (i : Instr) : isEmulate i = true ↔ ∃ p, i = .emulateRadar p := by
  cases i <;> simp [isEmulate]

/-- A cycle restarts exactly when it dispatches a RESET frame (R170, R189). -/
theorem State.afterPhase4_restart_iff (s : State) :
    s.afterPhase4.restart = true ↔ ∃ p, s.cycleInstr = some (.reset p) := by
  rw [State.afterPhase4_restart]
  cases s.cycleInstr with
  | none => simp
  | some i => simp [isReset_iff]

/-- The cycle dispatches an EMULATE_RADAR frame while armed (R171, R186). -/
def State.setsEmu (s : State) : Bool := s.armed && (s.cycleInstr.map isEmulate).getD false

theorem State.setsEmu_iff (s : State) :
    s.setsEmu = true ↔ s.armed = true ∧ ∃ p, s.cycleInstr = some (.emulateRadar p) := by
  unfold State.setsEmu
  cases s.cycleInstr with
  | none => simp
  | some i => simp [isEmulate_iff]

/-- The flag after phase 4: cleared by an aggregation, then set by an armed EMULATE_RADAR (R186, R224). -/
theorem State.afterPhase4_emu (s : State) :
    s.afterPhase4.emu = ((if onCadence s.cycle s.cfg.aggPeriod then false else s.emu) || s.setsEmu) := by
  unfold State.afterPhase4 State.setsEmu
  cases s.cycleInstr <;> simp [State.dispatched]

/-- Phase 5 clears the flag on a restart and keeps it otherwise (R114, R281). -/
theorem step_emu {s t : State} (h : step s = .next t) :
    t.emu = if s.afterPhase4.restart then false else s.afterPhase4.emu := by
  obtain ⟨-, rfl⟩ := (step_next_iff s t).mp h
  cases hr : s.afterPhase4.restart with
  | true => simp [State.afterDispatch, State.advance_of_restart hr]
  | false => simp [State.afterDispatch, State.advance_of_no_restart hr]

/-- Settles O53: the flag after phase 4, then phase 5. -/
theorem emulationFlagIsSetAndCleared : Obligations.EmulationFlagIsSetAndCleared := by
  intro s t h
  rw [step_emu h]
  refine ⟨fun p hi harmed => ?_, fun p hi => ?_, fun hnot hreset => ?_⟩
  · have hr : ¬ s.afterPhase4.restart = true := by simp [State.afterPhase4_restart_iff, hi]
    rw [if_neg hr, State.afterPhase4_emu, s.setsEmu_iff.mpr ⟨harmed, p, hi⟩, Bool.or_true]
  · exact if_pos (s.afterPhase4_restart_iff.mpr ⟨p, hi⟩)
  · have hr : ¬ s.afterPhase4.restart = true := by simpa [State.afterPhase4_restart_iff] using hreset
    have hset : s.setsEmu = false := by
      rw [← Bool.not_eq_true, State.setsEmu_iff]
      rintro ⟨harmed, p, hi⟩
      rcases hnot with hdisarmed | hother
      · exact Bool.false_ne_true (hdisarmed.symm.trans harmed)
      · exact hother p hi
    rw [if_neg hr, State.afterPhase4_emu, hset, Bool.or_false]
    simp only [onCadence_iff]

/-! The durations after a real aggregation. -/

/-- The aggregation is real exactly when the flag is clear or the build permits no emulation (R222, R228). -/
theorem State.emulates_eq_false_iff (s : State) :
    s.emulates = false ↔ s.emu = false ∨ s.cfg.emulationPermitted = false :=
  Bool.and_eq_false_iff

/-- A duration the fold leaves belongs to an event still in progress (R222). -/
theorem Channel.active_of_fold_dur_pos {cfg : Config} {c : Channel} (h : 0 < (c.fold cfg).dur) :
    c.active = true := by
  rw [Channel.fold_dur] at h
  by_contra hclosed
  rw [Bool.not_eq_true] at hclosed
  simp only [hclosed, true_and] at h
  split at h <;> omega

/-- Settles O52: a restart leaves no duration, and without one the fold is the last to write it. -/
theorem onlyOpenEventsSurviveARealAggregation : Obligations.OnlyOpenEventsSurviveARealAggregation := by
  intro s t hs h hcadence hreal k hk hdur
  obtain ⟨-, -, hlen, -, -⟩ := hs
  cases hr : s.afterPhase4.restart with
  | true => simp [step_chan_of_restart h hr, Channel.atReset] at hdur
  | false =>
    have hchan := step_chan h hr (hlen ▸ hk) hk
    simp only [(onCadence_iff _ _).mpr hcadence, s.emulates_eq_false_iff.mpr hreal, if_true,
      Bool.false_eq_true, if_false] at hchan
    rw [hchan] at hdur ⊢
    exact (Channel.fold_active _ _).trans (Channel.active_of_fold_dur_pos hdur)

end Sys2Proof.Machine

/-! The legality of the events (R56): each source of events of a cycle emits legal ones only. -/

namespace Sys2Proof.Machine

/-! Positions in the output scale (R153). -/

/-- A value clamped to a calibrated range lies in the native scale (R10, R142). -/
theorem clamp_calRange_native {cfg : Config} (h : CfgWF cfg) {r : CalRange} (hr : r ∈ calRanges cfg) (v : Int) :
    min cfg.nativeMin cfg.nativeMax ≤ clamp v r.r0 r.r1
      ∧ clamp v r.r0 r.r1 ≤ max cfg.nativeMin cfg.nativeMax := by
  have hnative := h.rangeInNative hr
  have hclamp := clamp_bounds v r.r0 r.r1
  omega

/-- Every path of MAP ends in a clamp to a range of the native scale (R144 to R150). -/
theorem nativeOf_bounds {cfg : Config} (h : CfgWF cfg) (a : Axis) (raw : Int) :
    min cfg.nativeMin cfg.nativeMax ≤ nativeOf cfg a raw
      ∧ nativeOf cfg a raw ≤ max cfg.nativeMin cfg.nativeMax := by
  by_cases ha : a = .headTilt
  · rw [ha, nativeOf_headTilt]
    rcases lt_or_ge raw 512 with hlow | hhigh
    · rw [nativeHt_below hlow]
      exact clamp_calRange_native h (htLo_mem cfg) _
    · rw [nativeHt_above hhigh]
      exact clamp_calRange_native h (htHi_mem cfg) _
  · cases hcal : cfg.calRange a with
    | some r =>
      rw [nativeOf_calibrated hcal]
      exact clamp_calRange_native h (calRange_mem hcal) _
    | none =>
      rw [nativeOf_unmapped ha hcal]
      exact clamp_bounds _ _ _

/-- A mapped position lies in the output scale (R149, R153). -/
theorem mapAxis_bounds {cfg : Config} (h : CfgWF cfg) (a : Axis) (p : Payload) :
    min cfg.outMin cfg.outMax ≤ mapAxis cfg a p ∧ mapAxis cfg a p ≤ max cfg.outMin cfg.outMax := by
  obtain ⟨hlow, hhigh⟩ := nativeOf_bounds h a (payloadVal p)
  exact interp_bounds h.nativeSpan hlow hhigh _ _

/-! Scores within their register (R43, R229). -/

/-- Every score of a channel file fits its register. -/
def ScoresFit (cfg : Config) (ch : List Channel) : Prop := ∀ c ∈ ch, c.score < 2 ^ cfg.scoreBits

/-- The real fold saturates what it adds (R222). -/
theorem ScoresFit.fold {cfg : Config} {ch : List Channel} (h : ScoresFit cfg ch) :
    ScoresFit cfg (ch.map (Channel.fold cfg)) := by
  intro c hc
  obtain ⟨c, hmem, rfl⟩ := List.mem_map.mp hc
  rw [Channel.fold_score]
  split
  · exact sat_lt _ _
  · exact h c hmem

/-- An emulated addition saturates (R225). -/
theorem ScoresFit.award {cfg : Config} {ch : List Channel} (h : ScoresFit cfg ch) (points i : Nat) :
    ScoresFit cfg (ch.modify i (Channel.award cfg points)) := by
  intro c hc
  obtain ⟨k, hk, rfl⟩ := List.mem_iff_getElem.mp hc
  rw [List.getElem_modify]
  split
  · exact sat_lt _ _
  · exact h _ (List.getElem_mem _)

/-- An emulated aggregation is at most three additions (R225, R227). -/
theorem ScoresFit.emulated {cfg : Config} {ch : List Channel} (h : ScoresFit cfg ch) (d : Draw) :
    ScoresFit cfg (emulatedScores cfg d ch) := by
  have hmain := h.award d.main d.idx
  unfold emulatedScores
  split_ifs with _ hleft hright hright
  · exact (hmain.award _ _).award _ _
  · exact hmain.award _ _
  · exact hmain.award _ _
  · exact hmain
  · exact h

theorem ScoresFit.scored {s : State} (h : ScoresFit s.cfg s.ch) : ScoresFit s.cfg s.scored := by
  unfold State.scored
  split
  · exact h.emulated _
  · exact h.fold

/-- SENSE writes no score (R210). -/
theorem State.sensedUpTo_scores (m : Nat) (s : State) :
    (s.sensedUpTo m).map Channel.score = s.ch.map Channel.score := by
  apply List.ext_getElem?
  intro k
  simp only [State.sensedUpTo, List.getElem?_map, List.getElem?_mapIdx]
  cases s.ch[k]? with
  | none => rfl
  | some c => simp [apply_ite Channel.score]

/-- Between cycles every score is cleared (R45). -/
theorem State.Inv.score_eq_zero {s : State} (hs : s.Inv) {c : Channel} (hc : c ∈ s.ch) : c.score = 0 := by
  obtain ⟨-, -, hlen, hchan, -⟩ := hs
  obtain ⟨k, hk, rfl⟩ := List.mem_iff_getElem.mp hc
  obtain ⟨-, -, -, -, -, hscore, -⟩ := hchan k (hlen ▸ hk)
  simpa [State.chan, List.getD_eq_getElem?_getD, hk] using hscore

/-- Phase 1 leaves scores that fit: they are still cleared. -/
theorem State.Inv.scoresFit_sensed {s : State} (hs : s.Inv) : ScoresFit s.cfg s.sensed.ch := by
  intro c hc
  have hscore : c.score ∈ s.ch.map Channel.score := by
    rw [← s.sensedUpTo_scores s.cfg.numChannels, ← State.sensed_ch]
    exact List.mem_map_of_mem hc
  obtain ⟨c', hmem, heq⟩ := List.mem_map.mp hscore
  rw [← heq, hs.score_eq_zero hmem]
  exact Nat.two_pow_pos _

/-! Lists of legal events. -/

/-- Every event of a list is legal. -/
def EventsLegal (cfg : Config) (es : List Event) : Prop := ∀ e ∈ es, e.Legal cfg

theorem EventsLegal.nil (cfg : Config) : EventsLegal cfg [] := List.forall_mem_nil _

theorem EventsLegal.singleton {cfg : Config} {e : Event} (h : e.Legal cfg) : EventsLegal cfg [e] :=
  List.forall_mem_singleton.mpr h

theorem EventsLegal.append {cfg : Config} {es fs : List Event} (he : EventsLegal cfg es) (hf : EventsLegal cfg fs) :
    EventsLegal cfg (es ++ fs) :=
  List.forall_mem_append.mpr ⟨he, hf⟩

/-- A list emitted under a condition is legal if it is so where the condition holds. -/
theorem EventsLegal.ite {cfg : Config} {es : List Event} {p : Prop} [Decidable p] (h : p → EventsLegal cfg es) :
    EventsLegal cfg (if p then es else []) := by
  split
  · exact h ‹p›
  · exact .nil cfg

/-! The sources of events. -/

/-- A motion effect writes a mapped position (R172). -/
theorem State.motionEvents_legal (s : State) (h : CfgWF s.cfg) (a : Axis) (p : Payload) :
    EventsLegal s.cfg (s.motionEvents a p) :=
  .ite fun _ => .singleton (mapAxis_bounds h a p)

theorem State.motionOpEvents_legal (s : State) (h : CfgWF s.cfg) (op : Nat) (p : Payload) :
    EventsLegal s.cfg (s.motionOpEvents op p) := by
  unfold State.motionOpEvents
  split
  · exact s.motionEvents_legal h _ p
  · exact .nil _

/-- A binary-output effect writes a bound output only (R173). -/
theorem State.binaryEvents_legal (s : State) (b : BinOut) (l : Bool) :
    EventsLegal s.cfg (s.binaryEvents b l) :=
  .ite fun hbound => .singleton hbound

theorem State.envelopeEvents_legal (s : State) (h : CfgWF s.cfg) (p : Payload) :
    EventsLegal s.cfg (s.envelopeEvents p) :=
  ((s.motionOpEvents_legal h _ p).append (.ite fun _ => s.motionOpEvents_legal h _ p)).append
    (s.binaryEvents_legal _ _)

/-- A well-formed instruction emits legal events (R170 to R190). -/
theorem State.effectEvents_legal (s : State) (h : CfgWF s.cfg) {i : Instr} (hi : i.WellFormed) :
    EventsLegal s.cfg (s.effectEvents i) := by
  cases i with
  | bodyTilt p | wings p | headTilt p | headRotate p | beak p => exact s.motionEvents_legal h _ p
  | envelope p => exact s.envelopeEvents_legal h p
  | eyes p | fog p => exact s.binaryEvents_legal _ _
  | isAlive p | reset p => exact .singleton trivial
  | unknown op p =>
    have hop : op ∉ knownOpcodes := by simpa [Instr.WellFormed, Instr.wf] using hi
    exact .singleton hop
  | idle p | emulateRadar p | deactivate p | reactivate p => exact .nil _

/-- The indicator is written where it is bound (R220). -/
theorem State.indicatedUpTo_legal (m : Nat) (s : State) : EventsLegal s.cfg (s.indicatedUpTo m) :=
  .ite fun ⟨_, _, hbound⟩ => .singleton hbound

/-- A report has one score for every channel record, each within its register (R223, R229). -/
theorem State.reportEvents_legal (s : State) (hlen : s.ch.length = s.cfg.numChannels)
    (hfit : ScoresFit s.cfg s.ch) : EventsLegal s.cfg s.reportEvents :=
  .ite fun _ => .singleton ⟨by simp [hlen], List.forall_mem_map.mpr hfit.scored⟩

/-- The echo stage skips IDLE and ENVELOPE (R125). -/
theorem echoOf_legal (cfg : Config) (f : Frame) : EventsLegal cfg (echoOf f) :=
  .ite fun hop => .singleton hop

/-- The instruction a cycle dispatches comes from a frame, so it is well formed (R99). -/
theorem State.cycleInstr_wellFormed {s : State} {i : Instr} (h : s.cycleInstr = some i) : i.WellFormed := by
  obtain ⟨f, -, rfl⟩ := Option.map_eq_some_iff.mp h
  exact f.instr_wellFormed

theorem State.dispatchEvents_legal (s : State) (h : CfgWF s.cfg) : EventsLegal s.cfg s.dispatchEvents := by
  unfold State.dispatchEvents
  split
  next i hi =>
    rw [← s.beforeDispatch_cfg] at h ⊢
    exact .ite fun _ => s.beforeDispatch.effectEvents_legal h (State.cycleInstr_wellFormed hi)
  next => exact .nil _

/-- Settles O19: the events of a step by their sources, in phase order. -/
theorem everyEventOfACycleIsLegal : Obligations.EveryEventOfACycleIsLegal := by
  intro s t hs h
  obtain ⟨hwf, -, hlen, -, -⟩ := id hs
  have hreport : EventsLegal s.cfg s.sensed.reportEvents := by
    have hsensed := s.sensed.reportEvents_legal (by simpa using hlen) (by simpa using hs.scoresFit_sensed)
    rwa [State.sensed_cfg] at hsensed
  have hecho : EventsLegal s.cfg ((s.agged.decodedFrame.map echoOf).getD []) := by
    cases s.agged.decodedFrame with
    | some f => exact echoOf_legal s.cfg f
    | none => exact .nil _
  rw [step_events h]
  exact (((s.indicatedUpTo_legal _).append hreport).append hecho).append (s.dispatchEvents_legal hwf)

end Sys2Proof.Machine

/-! Decoding and encoding (R91 to R99): the opcode map read from the side of the instruction, then the frame's bytes. -/

namespace Sys2Proof

/-- An opcode no row of the map has names UNKNOWN (R97). -/
theorem Frame.instr_of_not_known {f : Frame} (h : f.op ∉ knownOpcodes) : f.instr = .unknown f.op f.p := by
  obtain ⟨row, hrow, hop, -⟩ | ⟨-, hunknown⟩ := f.instr_cases
  · have hknown : row.op ∈ knownOpcodes := opcodeMap_ops ▸ List.mem_map_of_mem hrow
    exact absurd (hop ▸ hknown) h
  · exact hunknown

/-- The frame of a well-formed instruction names that instruction: the converse of `Frame.instr_frame` (R96, R97). -/
theorem Instr.frame_instr {i : Instr} (h : i.WellFormed) : i.frame.instr = i := by
  cases i with
  | idle p | bodyTilt p | wings p | headTilt p | headRotate p | beak p | envelope p | eyes p | fog p
  | isAlive p | emulateRadar p | deactivate p | reactivate p | reset p => rfl
  | unknown op p => exact Frame.instr_of_not_known (f := ⟨op, p⟩) (by simpa [Instr.WellFormed, Instr.wf] using h)

/-- The payload bytes of a frame assemble to the frame (R91, R93). -/
theorem frameOf_hi_lo (f : Frame) : frameOf f.op (payloadHi f.p) (payloadLo f.p) = f := by
  rw [frameOf, payloadOf_hi_lo]

/-- What is encoded decodes to the instruction its frame names (R72, R91). -/
theorem decode_encode_append (i : Instr) (rest : List Byte) :
    decode (encode i ++ rest) = .ok (i.frame.instr, rest) := by
  simp only [encode, List.cons_append, List.nil_append, decode, frameOf_hi_lo]

/-- The instruction three bytes name is encoded as those bytes (R91, R99). -/
theorem encode_frameOf_instr (b0 b1 b2 : Byte) : encode (frameOf b0 b1 b2).instr = [b0, b1, b2] := by
  rw [encode, Frame.instr_frame, frameOf, payloadHi_of, payloadLo_of]

/-- Settles O1: the bytes give back the frame, and the frame of a well-formed instruction gives back the instruction. -/
theorem decodeOfEncodeIsIdentity : Obligations.DecodeOfEncodeIsIdentity := by
  intro i rest h
  rw [decode_encode_append, Instr.frame_instr h]

/-- Settles O2: the one instruction is that of the frame the bytes assemble to. -/
theorem everyFrameDecodesToOneInstruction : Obligations.EveryFrameDecodesToOneInstruction :=
  fun b0 b1 b2 _ => ⟨(frameOf b0 b1 b2).instr, rfl, Frame.instr_wellFormed _, encode_frameOf_instr b0 b1 b2⟩

/-- Settles O3: each word of the table is evaluated. -/
theorem tableWordsDecode : Obligations.TableWordsDecode := by
  unfold Obligations.TableWordsDecode
  decide

end Sys2Proof

/-! The cycle (R110 to R118): what a step leaves in the counter, the mode and the transport, the sources of its
events, and on what its sensing and its dispatch depend. -/

namespace Sys2Proof.Machine

/-! What phase 5 leaves in each field it writes (R114, R281, R282). -/

theorem State.afterDispatch_cycle (s : State) :
    s.afterDispatch.cycle = if s.restart then 0 else (s.cycle + 1) % s.cfg.cycleWrap := by
  cases hr : s.restart with
  | true => simp [State.afterDispatch, State.advance_of_restart hr]
  | false => simp [State.afterDispatch, State.advance_of_no_restart hr]

theorem State.afterDispatch_armed (s : State) : s.afterDispatch.armed = if s.restart then true else s.armed := by
  cases hr : s.restart with
  | true => simp [State.afterDispatch, State.advance_of_restart hr]
  | false => simp [State.afterDispatch, State.advance_of_no_restart hr]

theorem State.afterDispatch_rx (s : State) :
    s.afterDispatch.rx = if s.restart = true ∧ s.input.keepRx = false then [] else s.rx := by
  cases hr : s.restart with
  | true => cases hk : s.input.keepRx <;> simp [State.afterDispatch, State.advance_of_restart hr, hk]
  | false => simp [State.afterDispatch, State.advance_of_no_restart hr]

/-- The counter after a step: back to 0 on a restart, else one further (R114, R281). -/
theorem step_cycle {s t : State} (h : step s = .next t) :
    t.cycle = if s.afterPhase4.restart then 0 else (s.cycle + 1) % s.cfg.cycleWrap := by
  obtain ⟨-, rfl⟩ := (step_next_iff s t).mp h
  rw [State.afterDispatch_cycle, State.afterPhase4_cycle, State.afterPhase4_cfg]

/-- A cycle without a RESET frame does not restart (R170, R189). -/
theorem State.afterPhase4_restart_eq_false {s : State} (h : ∀ p, s.cycleInstr ≠ some (.reset p)) :
    s.afterPhase4.restart = false := by
  rw [← Bool.not_eq_true, State.afterPhase4_restart_iff]
  exact not_exists.mpr h

/-- Both periods divide CYCLE_WRAP (R10). -/
theorem CfgWF.periods_dvd_wrap {cfg : Config} (h : CfgWF cfg) :
    cfg.aggPeriod ∣ cfg.cycleWrap ∧ cfg.envPeriod ∣ cfg.cycleWrap := by
  obtain ⟨-, -, -, hlcm, -⟩ := h.periods
  have hdvd := Nat.dvd_of_mod_eq_zero hlcm
  exact ⟨(Nat.dvd_lcm_left _ _).trans hdvd, (Nat.dvd_lcm_right _ _).trans hdvd⟩

/-- Settles O13: both periods divide the wrap, so the residues survive it. -/
theorem cycleCounterAdvances : Obligations.CycleCounterAdvances := by
  intro s t h
  obtain ⟨hwf, -⟩ := (step_next_iff s t).mp h
  obtain ⟨hagg, henv⟩ := hwf.periods_dvd_wrap
  rw [step_cycle h]
  refine ⟨fun hreset => if_pos (s.afterPhase4_restart_iff.mpr hreset), fun hreset => ?_⟩
  rw [State.afterPhase4_restart_eq_false hreset, if_neg Bool.false_ne_true]
  exact ⟨rfl, fun _ => ⟨Nat.mod_mod_of_dvd _ hagg, Nat.mod_mod_of_dvd _ henv⟩⟩

/-! The sources of the events of a cycle (R80, R113). -/

/-- No event of a list is a report or an echo. -/
def NoReportNoEcho (es : List Event) : Prop := ∀ e ∈ es, e.isReport = false ∧ e.isEcho = false

theorem NoReportNoEcho.nil : NoReportNoEcho [] := List.forall_mem_nil _

theorem NoReportNoEcho.singleton {e : Event} (hr : e.isReport = false) (he : e.isEcho = false) :
    NoReportNoEcho [e] :=
  List.forall_mem_singleton.mpr ⟨hr, he⟩

theorem NoReportNoEcho.append {es fs : List Event} (he : NoReportNoEcho es) (hf : NoReportNoEcho fs) :
    NoReportNoEcho (es ++ fs) :=
  List.forall_mem_append.mpr ⟨he, hf⟩

theorem NoReportNoEcho.ite {es : List Event} (h : NoReportNoEcho es) (p : Prop) [Decidable p] :
    NoReportNoEcho (if p then es else []) := by
  split
  · exact h
  · exact .nil

theorem State.motionEvents_noReportNoEcho (s : State) (a : Axis) (p : Payload) :
    NoReportNoEcho (s.motionEvents a p) :=
  (NoReportNoEcho.singleton rfl rfl).ite _

theorem State.motionOpEvents_noReportNoEcho (s : State) (op : Nat) (p : Payload) :
    NoReportNoEcho (s.motionOpEvents op p) := by
  unfold State.motionOpEvents
  split
  · exact s.motionEvents_noReportNoEcho _ p
  · exact .nil

theorem State.binaryEvents_noReportNoEcho (s : State) (b : BinOut) (l : Bool) :
    NoReportNoEcho (s.binaryEvents b l) :=
  (NoReportNoEcho.singleton rfl rfl).ite _

theorem State.envelopeEvents_noReportNoEcho (s : State) (p : Payload) : NoReportNoEcho (s.envelopeEvents p) :=
  ((s.motionOpEvents_noReportNoEcho _ p).append ((s.motionOpEvents_noReportNoEcho _ p).ite _)).append
    (s.binaryEvents_noReportNoEcho _ _)

/-- No instruction reports or echoes: both happen before the dispatch (R113). -/
theorem State.effectEvents_noReportNoEcho (s : State) (i : Instr) : NoReportNoEcho (s.effectEvents i) := by
  cases i with
  | bodyTilt p | wings p | headTilt p | headRotate p | beak p => exact s.motionEvents_noReportNoEcho _ p
  | envelope p => exact s.envelopeEvents_noReportNoEcho p
  | eyes p | fog p => exact s.binaryEvents_noReportNoEcho _ _
  | isAlive p | reset p | unknown op p => exact .singleton rfl rfl
  | idle p | emulateRadar p | deactivate p | reactivate p => exact .nil

theorem State.dispatchEvents_noReportNoEcho (s : State) : NoReportNoEcho s.dispatchEvents := by
  unfold State.dispatchEvents
  split
  · exact (s.beforeDispatch.effectEvents_noReportNoEcho _).ite _
  · exact .nil

/-- A list of at most one event, of the kind `P`. -/
def AtMostOne (P : Event → Prop) (es : List Event) : Prop := es.length ≤ 1 ∧ ∀ e ∈ es, P e

theorem AtMostOne.nil (P : Event → Prop) : AtMostOne P [] := ⟨Nat.zero_le 1, List.forall_mem_nil P⟩

theorem AtMostOne.ite_singleton {P : Event → Prop} {e : Event} (h : P e) (p : Prop) [Decidable p] :
    AtMostOne P (if p then [e] else []) := by
  split
  · exact ⟨le_rfl, List.forall_mem_singleton.mpr h⟩
  · exact .nil P

/-- Phase 1 emits at most the level of the indicator (R220). -/
theorem State.indicatedUpTo_atMostOne (m : Nat) (s : State) :
    AtMostOne (fun e => ∃ l, e = .setLevel .indicator l) (s.indicatedUpTo m) :=
  .ite_singleton ⟨_, rfl⟩ _

/-- Phase 2 emits at most a report (R223). -/
theorem State.reportEvents_atMostOne (s : State) : AtMostOne (fun e => e.isReport = true) s.reportEvents :=
  .ite_singleton (by rfl) _

theorem echoOf_atMostOne (f : Frame) : AtMostOne (fun e => e.isEcho = true) (echoOf f) :=
  .ite_singleton (by rfl) _

/-- Phase 3 emits at most an echo (R125). -/
theorem State.echoEvents_atMostOne (s : State) :
    AtMostOne (fun e => e.isEcho = true) ((s.decodedFrame.map echoOf).getD []) := by
  cases s.decodedFrame with
  | none => exact .nil _
  | some f => exact echoOf_atMostOne f

/-- Settles O14: each of the first three phases emits at most one event, of its own kind. -/
theorem eventsFollowThePhaseOrder : Obligations.EventsFollowThePhaseOrder := by
  intro s t h
  obtain ⟨hsense1, hsense⟩ := s.indicatedUpTo_atMostOne s.cfg.numChannels
  obtain ⟨hreport1, hreport⟩ := s.sensed.reportEvents_atMostOne
  obtain ⟨hecho1, hecho⟩ := s.agged.echoEvents_atMostOne
  exact ⟨_, _, _, _, step_events h, hsense1, hsense, hreport1, hreport, hecho1, hecho,
    s.dispatchEvents_noReportNoEcho⟩

/-! On what sensing and aggregation depend (R113). -/

/-- An echo is no report. -/
theorem Event.isReport_of_isEcho {e : Event} (h : e.isEcho = true) : e.isReport = false :=
  match e, h with
  | .echo _ _, _ => rfl

/-- The reports of a step are those of its phase 2 (R113, R223). -/
theorem step_reports {s t : State} (h : step s = .next t) :
    t.events.filter Event.isReport = s.sensed.reportEvents := by
  obtain ⟨-, hsense⟩ := s.indicatedUpTo_atMostOne s.cfg.numChannels
  obtain ⟨-, hreport⟩ := s.sensed.reportEvents_atMostOne
  obtain ⟨-, hecho⟩ := s.agged.echoEvents_atMostOne
  have hsense' : (s.indicatedUpTo s.cfg.numChannels).filter Event.isReport = [] := by
    refine List.filter_eq_nil_iff.mpr fun e he => ?_
    obtain ⟨l, rfl⟩ := hsense e he
    exact Bool.false_ne_true
  have hecho' : ((s.agged.decodedFrame.map echoOf).getD []).filter Event.isReport = [] :=
    List.filter_eq_nil_iff.mpr fun e he => Bool.eq_false_iff.mp (Event.isReport_of_isEcho (hecho e he))
  have hdispatch : s.dispatchEvents.filter Event.isReport = [] := by
    refine List.filter_eq_nil_iff.mpr fun e he => ?_
    obtain ⟨hnoReport, -⟩ := s.dispatchEvents_noReportNoEcho e he
    exact Bool.eq_false_iff.mp hnoReport
  rw [step_events h]
  simp only [List.filter_append, hsense', List.filter_eq_self.mpr hreport, hecho', hdispatch, List.nil_append,
    List.append_nil]

/-- Two states agree on all that phases 1 and 2 read: CFG, the counter, the emulation flag, the channels, the samples
and the draw. -/
structure SensingAgrees (s s' : State) : Prop where
  cfg : s'.cfg = s.cfg
  cycle : s'.cycle = s.cycle
  emu : s'.emu = s.emu
  ch : s'.ch = s.ch
  samples : s'.input.samples = s.input.samples
  draw : s'.input.draw = s.input.draw

theorem SensingAgrees.sensedUpTo {s s' : State} (h : SensingAgrees s s') (m : Nat) :
    s'.sensedUpTo m = s.sensedUpTo m := by
  simp only [State.sensedUpTo, State.sampleAt, h.cfg, h.ch, h.samples]

/-- Phase 1 keeps the agreement (R210). -/
theorem SensingAgrees.sensed {s s' : State} (h : SensingAgrees s s') : SensingAgrees s.sensed s'.sensed where
  cfg := by simpa using h.cfg
  cycle := by simpa using h.cycle
  emu := by simpa using h.emu
  ch := by rw [State.sensed_ch, State.sensed_ch, h.sensedUpTo, h.cfg]
  samples := by simpa using h.samples
  draw := by simpa using h.draw

theorem SensingAgrees.emulates {s s' : State} (h : SensingAgrees s s') : s'.emulates = s.emulates := by
  simp only [State.emulates, h.emu, h.cfg]

theorem SensingAgrees.inputDraw {s s' : State} (h : SensingAgrees s s') : s'.draw = s.draw := by
  simp only [State.draw, h.cfg, h.draw]

theorem SensingAgrees.scored {s s' : State} (h : SensingAgrees s s') : s'.scored = s.scored := by
  simp only [State.scored, h.emulates, h.inputDraw, h.cfg, h.ch]

theorem SensingAgrees.found {s s' : State} (h : SensingAgrees s s') : s'.found = s.found := by
  simp only [State.found, h.emulates, h.inputDraw, h.scored, h.cfg]

/-- The report of phase 2 depends on nothing else (R223). -/
theorem SensingAgrees.reportEvents {s s' : State} (h : SensingAgrees s s') : s'.reportEvents = s.reportEvents := by
  simp only [State.reportEvents, h.cycle, h.cfg, h.found, h.scored]

/-- The channels phase 2 leaves depend on nothing else (R222 to R225). -/
theorem SensingAgrees.aggregated {s s' : State} (h : SensingAgrees s s') : s'.aggregated = s.aggregated := by
  simp only [State.aggregated, h.cycle, h.cfg, h.scored, h.ch]

/-- Settles O15: phase 1 keeps the agreement of the two states, and phase 2 reads nothing beyond it. -/
theorem commandsDoNotReachSensingOfTheirCycle : Obligations.CommandsDoNotReachSensingOfTheirCycle := by
  intro s s' t t' hcfg hcycle hemu hch hsamples hdraw h h'
  have hsensed : SensingAgrees s.sensed s'.sensed :=
    SensingAgrees.sensed ⟨hcfg, hcycle, hemu, hch, hsamples, hdraw⟩
  refine ⟨?_, fun hreset hreset' => ?_⟩
  · rw [step_reports h, step_reports h', hsensed.reportEvents]
  · rw [step_ch h (State.afterPhase4_restart_eq_false hreset),
      step_ch h' (State.afterPhase4_restart_eq_false hreset'), hsensed.aggregated]

/-! On what the dispatched instruction, the mode and the transport depend (R111, R171, R257). -/

/-- DECODE reads the bytes of the tail wait and the outcome of an underrun, and no other input (R120 to R123). -/
theorem takeFrame_congr {i i' : CycleInput} (hwait : i'.wait = i.wait) (hunderrun : i'.underrun = i.underrun)
    (rx : List Byte) : takeFrame i' rx = takeFrame i rx := by
  unfold takeFrame
  rw [hwait, hunderrun]

/-- The instruction of a cycle, by the queue and the inputs alone (R111, R120 to R123). -/
theorem State.cycleInstr_eq_takeFrame (s : State) :
    s.cycleInstr = (takeFrame s.input (s.rx ++ s.input.arrivals)).1.map Frame.instr := by
  rw [State.cycleInstr_eq, State.agged_decodedFrame]

/-- The mode after phase 4 (R171, R187, R188). -/
theorem State.afterPhase4_armed (s : State) :
    s.afterPhase4.armed = (s.cycleInstr.map (armedAfter s.armed)).getD s.armed := by
  unfold State.afterPhase4
  cases s.cycleInstr <;> simp [State.dispatched]

/-- The mode after a step: that of phase 4, and armed after a restart (R187, R188, R281). -/
theorem step_armed {s t : State} (h : step s = .next t) :
    t.armed = if (s.cycleInstr.map isReset).getD false then true
      else (s.cycleInstr.map (armedAfter s.armed)).getD s.armed := by
  obtain ⟨-, rfl⟩ := (step_next_iff s t).mp h
  rw [State.afterDispatch_armed, State.afterPhase4_restart, State.afterPhase4_armed]

/-- The queue after a step: what DECODE left, unless a restart discards it (R121, R282). -/
theorem step_rx {s t : State} (h : step s = .next t) :
    t.rx = if (s.cycleInstr.map isReset).getD false = true ∧ s.input.keepRx = false then []
      else (takeFrame s.input (s.rx ++ s.input.arrivals)).2 := by
  obtain ⟨-, rfl⟩ := (step_next_iff s t).mp h
  rw [State.afterDispatch_rx, State.afterPhase4_restart, State.afterPhase4_input, State.afterPhase4_rx]

/-- Settles O16: DECODE takes the same frame in both states, and the mode and the transport follow from it. -/
theorem sensorsDoNotReachModeOrTransport : Obligations.SensorsDoNotReachModeOrTransport := by
  intro s s' t t' _ harmed hrx harrivals hwait hunderrun hkeep h h'
  have htake : takeFrame s'.input (s'.rx ++ s'.input.arrivals) = takeFrame s.input (s.rx ++ s.input.arrivals) := by
    rw [takeFrame_congr hwait hunderrun, hrx, harrivals]
  have hinstr : s'.cycleInstr = s.cycleInstr := by
    rw [State.cycleInstr_eq_takeFrame, htake, ← State.cycleInstr_eq_takeFrame]
  refine ⟨hinstr, ?_, ?_⟩
  · rw [step_armed h', hinstr, harmed, ← step_armed h]
  · rw [step_rx h', hinstr, hkeep, htake, ← step_rx h]

/-! The step as the dispatch between its phases (R111, R112). -/

/-- A byte string decodes exactly when it holds 3 bytes; the rest is left (R72, R121). -/
theorem decode_ok_iff {bytes rest : List Byte} {i : Instr} :
    decode bytes = .ok (i, rest) ↔
      ∃ b0 b1 b2, bytes = b0 :: b1 :: b2 :: rest ∧ (frameOf b0 b1 b2).instr = i := by
  constructor
  · intro h
    match bytes, h with
    | b0 :: b1 :: b2 :: _, h =>
      cases h
      exact ⟨b0, b1, b2, rfl, rfl⟩
  · rintro ⟨b0, b1, b2, rfl, rfl⟩
    rfl

/-- A step with a frame is `exec` of its instruction between `beforeDispatch` and `afterDispatch` (R111). -/
theorem step_of_cycleInstr {s : State} (h : CfgWF s.cfg) {i : Instr} (hi : s.cycleInstr = some i) :
    exec i s.beforeDispatch = .next s.afterPhase4 ∧ step s = .next s.afterPhase4.afterDispatch := by
  refine ⟨?_, step_of_wf h⟩
  rw [exec_eq, State.afterPhase4, hi]

/-- Settles O9: `step` by its inversion lemma, the frame by `takeFrame` on the bytes queued at the start. -/
theorem stepRunsDecodedInstr : Obligations.StepRunsDecodedInstr := by
  intro s hwf
  refine ⟨fun i hi => ?_, fun hi => ?_, s.cycleInstr_eq_takeFrame, s.beforeDispatch_rx, ?_⟩
  · obtain ⟨hexec, hstep⟩ := step_of_cycleInstr hwf hi
    rw [hexec, hstep]
  · rw [step_of_wf hwf, State.afterPhase4, hi]
  · intro bytes rest i hqueue hdecode
    obtain ⟨b0, b1, b2, rfl, rfl⟩ := decode_ok_iff.mp hdecode
    rw [s.cycleInstr_eq_takeFrame, s.beforeDispatch_rx, hqueue]
    exact ⟨rfl, rfl⟩

/-- Settles O11: under a well-formed CFG a step answers a next state, which has the same CFG. -/
theorem everyCycleCompletes : Obligations.EveryCycleCompletes := by
  intro s hwf
  have hstep := step_of_wf hwf
  exact ⟨_, hstep, (step_cfg hstep).symm ▸ hwf⟩

end Sys2Proof.Machine

/-! The command decoder (R120 to R126): what DECODE takes from the queue in each case, and the echo. -/

namespace Sys2Proof.Machine

/-! The bytes DECODE takes. -/

/-- The tail wait takes what it needs from the queued bytes and then the arriving ones, in their order, and leaves the
others (R122). -/
theorem tailWait_eq (need : Nat) (buf queued arriving : List Byte) :
    tailWait need buf queued arriving
      = (buf ++ (queued ++ arriving).take need, (queued ++ arriving).drop need) := by
  induction need, buf, queued, arriving using tailWait.induct with
  | case1 buf queued arriving => simp [tailWait]
  | case2 buf arriving need b queued ih => simp [tailWait, ih]
  | case3 buf need b arriving ih => simp [tailWait, ih]
  | case4 buf need => simp [tailWait]

/-- A queue that holds 1 or 2 bytes is decoded from the first 3 of its bytes and those of the tail wait (R122, R123). -/
theorem takeFrame_of_short (i : CycleInput) {rx : List Byte} (hpos : 1 ≤ rx.length) (hshort : rx.length < 3) :
    takeFrame i rx = (frameOfTail i.underrun ((rx ++ i.wait).take 3), (rx ++ i.wait).drop 3) := by
  match rx with
  | [b0] => simp [takeFrame, tailWait_eq]
  | [b0, b1] => simp [takeFrame, tailWait_eq]

/-- A tail wait that gets its bytes takes the same frame as a queue that holds them (R122). -/
theorem takeFrame_of_completed (i : CycleInput) {rx : List Byte} (hpos : 1 ≤ rx.length) (hshort : rx.length < 3)
    {b0 b1 b2 : Byte} {rest : List Byte} (hbytes : rx ++ i.wait = b0 :: b1 :: b2 :: rest) :
    takeFrame i rx = (some (frameOf b0 b1 b2), rest) := by
  rw [takeFrame_of_short i hpos hshort, hbytes]
  rfl

/-- A tail wait that expires takes every byte there is (R123). -/
theorem takeFrame_of_underrun (i : CycleInput) {rx : List Byte} (hpos : 1 ≤ rx.length)
    (hexpires : (rx ++ i.wait).length < 3) :
    takeFrame i rx = (frameOfTail i.underrun (rx ++ i.wait), []) := by
  have hshort : rx.length < 3 := by
    rw [List.length_append] at hexpires
    omega
  rw [takeFrame_of_short i hpos hshort, List.take_of_length_le hexpires.le, List.drop_of_length_le hexpires.le]

/-- DROP makes no frame of an incomplete one (R123). -/
theorem frameOfTail_drop {taken : List Byte} (h : taken.length < 3) : frameOfTail .drop taken = none := by
  match taken with
  | [] | [_] | [_, _] => rfl

/-- FILL keeps the bytes taken and draws the missing ones (R123). -/
theorem frameOfTail_fill (hi lo b0 : Byte) {tail : List Byte} (h : tail.length < 2) :
    frameOfTail (.fill hi lo) (b0 :: tail) = some (frameOf b0 ((tail[0]?).getD hi) lo) := by
  match tail with
  | [] | [_] => rfl

/-! DECODE as one write of the queue and the event list. -/

/-- The frame and the whole next state of DECODE, from what it takes from the queue (R111, R121, R125). -/
theorem State.decode_of_takeFrame {s : State} {f : Option Frame} {rest : List Byte}
    (h : takeFrame s.input s.rx = (f, rest)) :
    s.decodedFrame = f
      ∧ s.decodePhase = { s with rx := rest, events := s.events ++ (f.map echoOf).getD [] } := by
  have hframe : s.decodedFrame = f := congrArg Prod.fst h
  refine ⟨hframe, ?_⟩
  rw [State.decodePhase, hframe, h]
  rfl

/-- The echo by the two opcodes it leaves out (R125). -/
theorem echoOf_eq (f : Frame) : echoOf f = if f.op = 0 ∨ f.op = 17 then [] else [.echo f.op f.p] := by
  simp only [echoOf, ne_eq, ← not_or, ite_not]

/-- Settles O6: the wait takes the first 3 of the queued and the arriving bytes. -/
theorem tailWaitCompletesWithArrivals : Obligations.TailWaitCompletesWithArrivals := by
  intro s b0 b1 b2 rest hpos hshort hbytes
  obtain ⟨hframe, hphase⟩ := State.decode_of_takeFrame (takeFrame_of_completed s.input hpos hshort hbytes)
  exact ⟨payloadOf b1 b2, payloadOf_toNat b1 b2, hframe, congrArg State.rx hphase⟩

/-- Settles O7: the wait takes all the bytes there are, and `frameOfTail` answers each outcome of the underrun. -/
theorem underrunDropsOrFills : Obligations.UnderrunDropsOrFills := by
  intro s hpos hexpires
  obtain ⟨hframe, hphase⟩ := State.decode_of_takeFrame (takeFrame_of_underrun s.input hpos hexpires)
  refine ⟨congrArg State.rx hphase, fun hdrop => ?_, fun hi lo hfill => ?_⟩
  · have hnone : s.decodedFrame = none := by rw [hframe, hdrop, frameOfTail_drop hexpires]
    refine ⟨hnone, ?_⟩
    rw [State.decodePhase_events, hnone]
    exact List.append_nil _
  · obtain ⟨b0, queued, hrx⟩ := List.exists_cons_of_length_pos hpos
    rw [hrx, List.cons_append] at hexpires hframe ⊢
    rw [hfill, frameOfTail_fill hi lo b0 (Nat.lt_of_succ_lt_succ hexpires)] at hframe
    exact ⟨b0, _, payloadOf _ lo, rfl, rfl, payloadOf_toNat _ lo, hframe⟩

/-- Settles O8: the echo stands between the sources of the other events, of which only the dispatch follows it. -/
theorem cycleEchoesItsFrame : Obligations.CycleEchoesItsFrame := by
  intro s t h
  obtain ⟨-, hsense⟩ := s.indicatedUpTo_atMostOne s.cfg.numChannels
  obtain ⟨-, hreport⟩ := s.sensed.reportEvents_atMostOne
  refine ⟨s.indicatedUpTo s.cfg.numChannels ++ s.sensed.reportEvents, s.dispatchEvents, ?_, fun e he => ?_,
    s.dispatchEvents_noReportNoEcho⟩
  · rw [step_events h, s.cycleInstr_eq]
    cases s.agged.decodedFrame with
    | none => rfl
    | some f => simp [echoOf_eq]
  · exact (List.mem_append.mp he).symm.imp (hreport e) (hsense e)

/-- Settles O4: an empty queue yields no frame, so DECODE writes back the queue and the event list it found. -/
theorem emptyTransportDecodesNothing : Obligations.EmptyTransportDecodesNothing := by
  intro s hrx
  have htake : takeFrame s.input s.rx = (none, s.rx) := by
    rw [hrx]
    rfl
  obtain ⟨hframe, hphase⟩ := State.decode_of_takeFrame htake
  refine ⟨hframe, ?_⟩
  rw [hphase]
  simp

/-- Settles O5: a whole queued frame is taken without a wait. -/
theorem completeFrameIsDecodedAndEchoed : Obligations.CompleteFrameIsDecodedAndEchoed := by
  intro s b0 b1 b2 rest hrx
  have htake : takeFrame s.input s.rx = (some (frameOf b0 b1 b2), rest) := by
    rw [hrx]
    rfl
  obtain ⟨hframe, hphase⟩ := State.decode_of_takeFrame htake
  refine ⟨payloadOf b1 b2, payloadOf_toNat b1 b2, hframe, ?_⟩
  rw [hphase, Option.map_some, echoOf_eq]
  rfl

end Sys2Proof.Machine

/-! The Position Mapper (R140 to R157): what interpolation gives at the ends of its domain, how each path of MAP moves
with the payload, and the width of its arithmetic. -/

namespace Sys2Proof.Machine

/-! The ends of a domain and of a range. -/

@[simp] theorem interp_domainStart (d0 d1 r0 r1 : Int) : interp d0 d0 d1 r0 r1 = r0 := by
  simp [interp]

theorem interp_domainEnd {d0 d1 : Int} (hd : d0 ≠ d1) (r0 r1 : Int) : interp d1 d0 d1 r0 r1 = r1 := by
  rw [interp, tdiv_mul_self (sub_ne_zero.mpr hd.symm), add_sub_cancel]

/-- Interpolation over a domain that starts at 0 (R145, R147). -/
theorem interp_fromZero (x d r0 r1 : Int) : interp x 0 d r0 r1 = r0 + Int.tdiv (x * (r1 - r0)) d := by
  rw [interp, sub_zero, sub_zero, tdiv]

theorem clamp_lowerEnd (a b : Int) : clamp a a b = a := clamp_of_mem (min_le_left a b) (le_max_left a b)

theorem clamp_upperEnd (a b : Int) : clamp b a b = b := clamp_of_mem (min_le_right a b) (le_max_right a b)

/-! HEAD_TILT at its two extremes (R157). -/

theorem nativeHtLo_zero (cfg : Config) : nativeHtLo cfg 0 = cfg.htLo.r0 := by
  rw [nativeHtLo, interp_domainStart, clamp_lowerEnd]

theorem nativeHtHi_domainEnd {cfg : Config} (h : CfgWF cfg) : nativeHtHi cfg 1023 = cfg.htHi.r1 := by
  obtain ⟨-, -, -, hstart⟩ := h.htDomain
  rw [nativeHtHi, interp_domainEnd (by omega), clamp_upperEnd]

/-! Monotonicity (R154). -/

/-- A clamp to the range keeps the direction that interpolation takes from it (R141, R142). -/
theorem clamp_interp_mono {x y d0 d1 : Int} (hd : d0 < d1) (h : x ≤ y) (r0 r1 : Int) :
    (r0 ≤ r1 → clamp (interp x d0 d1 r0 r1) r0 r1 ≤ clamp (interp y d0 d1 r0 r1) r0 r1)
      ∧ (r1 < r0 → clamp (interp y d0 d1 r0 r1) r0 r1 ≤ clamp (interp x d0 d1 r0 r1) r0 r1) :=
  have ⟨hrising, hfalling⟩ := interp_mono hd h r0 r1
  ⟨fun hr => clamp_mono (hrising hr) r0 r1, fun hr => clamp_mono (hfalling hr.le) r0 r1⟩

theorem domainClamp_mono {x y : Int} (h : x ≤ y) : domainClamp x ≤ domainClamp y := min_le_min_right 1023 h

/-! The width of the datapath (R152). -/

theorem fits32_of_natAbs_lt {v : Int} (h : v.natAbs < 2 ^ 31) : fits32 v := by
  unfold fits32
  omega

/-- An interpolation fits 32 bits when the widest product over its domain does: the quotient is never wider than the
product (R152). -/
theorem interpFits32_of_width {x d0 r0 r1 : Int} {width : Nat} (hx : (x - d0).natAbs ≤ width)
    (hfits : width * (r1 - r0).natAbs < 2 ^ 31) (d1 : Int) : interpFits32 x d0 d1 r0 r1 := by
  have hproduct : ((x - d0) * (r1 - r0)).natAbs < 2 ^ 31 := by
    rw [Int.natAbs_mul]
    exact (Nat.mul_le_mul_right _ hx).trans_lt hfits
  refine ⟨fits32_of_natAbs_lt hproduct, fits32_of_natAbs_lt ?_⟩
  rw [tdiv, Int.natAbs_tdiv]
  exact (Nat.div_le_self _ _).trans_lt hproduct

/-! The statements. -/

/-- Settles O37: each path ends in a clamp to the range it interpolates into, and RESCALE stays inside its own. -/
theorem mappedValueIsInRange : Obligations.MappedValueIsInRange := by
  intro cfg a p hwf
  refine ⟨mapAxis_bounds hwf a p, fun r hcal => ?_, fun ha hlow => ?_, fun ha hhigh => ?_, nativeOf_bounds hwf a _⟩
  · rw [nativeOf_calibrated hcal]
    exact clamp_bounds _ _ _
  · rw [ha, nativeOf_headTilt, nativeHt_below (by omega)]
    exact clamp_bounds _ _ _
  · rw [ha, nativeOf_headTilt, nativeHt_above (by omega)]
    exact clamp_bounds _ _ _

/-- Settles O38: every domain of MAP rises, so each path follows the direction of its range. -/
theorem nativeValueIsMonotone : Obligations.NativeValueIsMonotone := by
  refine ⟨fun r p q hpq => ?_, fun cfg x y hwf hxy => ?_⟩
  · exact clamp_interp_mono (by decide) (domainClamp_mono (Int.ofNat_le.mpr hpq)) r.r0 r.r1
  · obtain ⟨hloEnd, -, -, hhiStart⟩ := hwf.htDomain
    have hlo := clamp_interp_mono (by omega : 0 < cfg.htLoDmax) hxy cfg.htLo.r0 cfg.htLo.r1
    have hhi := clamp_interp_mono (by omega : cfg.htHiDmin < 1023) hxy cfg.htHi.r0 cfg.htHi.r1
    exact ⟨hlo.1, hlo.2, hhi⟩

/-- Settles O40: payload 0 starts the lower domain, and every payload from 1023 up is clamped to the end of the upper
one. -/
theorem headTiltReachesItsExtremes : Obligations.HeadTiltReachesItsExtremes := by
  intro cfg p hwf
  rw [nativeOf_headTilt]
  refine ⟨fun hzero => ?_, fun hfull => ?_⟩
  · rw [hzero, nativeHt_below (by decide)]
    exact nativeHtLo_zero cfg
  · rw [nativeHt_above (by omega), domainClamp_of_ge (by omega), nativeHtHi_domainEnd hwf]

/-- Settles O41: on a calibrated path the input is at most 1023 from its domain's start, and the native value is at
most the native span from NATIVE_MIN. -/
theorem mapperFitsA32BitDatapath : Obligations.MapperFitsA32BitDatapath := by
  intro cfg a p hwf
  obtain ⟨hranges, hscales⟩ := hwf.datapath
  obtain ⟨-, -, hhiStartNonneg, hhiStartLe⟩ := hwf.htDomain
  obtain ⟨hlow, hhigh⟩ := nativeOf_bounds hwf a (p.toNat : Int)
  refine ⟨fun r hcal => ?_, fun _ _ => ?_, fun _ _ => ?_, ?_⟩
  · exact interpFits32_of_width (by omega) (hranges r (calRange_mem hcal)) _
  · exact interpFits32_of_width (by omega) (hranges _ (htLo_mem cfg)) _
  · exact interpFits32_of_width (by omega) (hranges _ (htHi_mem cfg)) _
  · exact interpFits32_of_width (by omega) hscales _

/-- Settles O36: `out` is RESCALE, applied to the native value of the path taken. -/
theorem mapFollowsItsPath : Obligations.MapFollowsItsPath := by
  intro cfg p
  refine ⟨rescale cfg, fun _ => rfl, fun a r _ hcal => ?_, fun a ha hcal => ?_, fun hlow => ?_, fun hhigh => ?_⟩
  · rw [mapAxis, nativeOf_calibrated hcal, nativeSingle, interp_fromZero]
    rfl
  · rw [mapAxis, nativeOf_unmapped ha hcal]
    rfl
  · rw [mapAxis, nativeOf_headTilt, nativeHt_below (by unfold payloadVal; omega), nativeHtLo, interp_fromZero]
    rfl
  · rw [mapAxis, nativeOf_headTilt, nativeHt_above (by unfold payloadVal; omega)]
    rfl

/-- Settles O39: the two ends of the domain, and the symmetry of the clamp in its bounds. -/
theorem interpolationEndsAreExact : Obligations.InterpolationEndsAreExact := by
  intro d0 d1 r0 r1 hd
  exact ⟨interp_domainStart d0 d1 r0 r1, interp_domainEnd hd r0 r1, fun v => clamp_comm v r0 r1⟩

end Sys2Proof.Machine

/-! The dispatcher (R170 to R193): what an instruction behind the armed gate writes, what every dispatch leaves
unchanged, and the sink calls of a disarmed cycle. -/

namespace Sys2Proof.Machine

/-! Instructions behind the armed gate (R170, R171). -/

/-- An instruction other than RESET, DEACTIVATE and REACTIVATE stands behind the armed gate (R170). -/
theorem ungated_eq_false {i : Instr} (hreset : ∀ p, i ≠ .reset p) (hdeactivate : ∀ p, i ≠ .deactivate p)
    (hreactivate : ∀ p, i ≠ .reactivate p) : ungated i = false := by
  cases i with
  | reset p => exact absurd rfl (hreset p)
  | deactivate p => exact absurd rfl (hdeactivate p)
  | reactivate p => exact absurd rfl (hreactivate p)
  | _ => rfl

/-- Behind the gate no instruction writes the mode or requests a restart (R187 to R189). -/
theorem gated_keeps_mode_and_restart {i : Instr} (hgated : ungated i = false) (armed : Bool) :
    armedAfter armed i = armed ∧ isReset i = false := by
  cases i with
  | reset p | deactivate p | reactivate p => cases hgated
  | _ => exact ⟨rfl, rfl⟩

/-- Writing the mode the block is in changes nothing (R191). -/
theorem State.with_armed_self {s : State} {armed : Bool} (h : s.armed = armed) : { s with armed := armed } = s := by
  subst h
  rfl

/-- While disarmed an instruction behind the gate does nothing (R171). -/
theorem exec_gated_of_disarmed {s : State} {i : Instr} (hdisarmed : s.armed = false) (hgated : ungated i = false) :
    exec i s = .next s := by
  obtain ⟨hmode, hrestart⟩ := gated_keeps_mode_and_restart hgated false
  rw [exec_eq]
  simp [State.dispatched, hdisarmed, hmode, hrestart, hgated, State.with_armed_self hdisarmed]

/-- Behind the gate every instruction but EMULATE_RADAR writes its own events, when armed, and nothing else. -/
theorem exec_gated_emits {i : Instr} (hgated : ungated i = false) (hemu : isEmulate i = false) (s : State) :
    exec i s = .next { s with events := s.events ++ (if s.armed then s.effectEvents i else []) } := by
  obtain ⟨hmode, hrestart⟩ := gated_keeps_mode_and_restart hgated s.armed
  rw [exec_eq]
  simp [State.dispatched, hmode, hrestart, hgated, hemu]

/-- An instruction whose one event has a condition of its own emits it exactly when armed and the condition holds. -/
theorem exec_gated_emits_if {s : State} {i : Instr} {e : Event} {condition : Prop} [Decidable condition]
    (hgated : ungated i = false) (hemu : isEmulate i = false)
    (hevents : s.effectEvents i = if condition then [e] else []) :
    exec i s = .next { s with events := s.events ++ (if s.armed = true ∧ condition then [e] else []) } := by
  rw [exec_gated_emits hgated hemu, hevents, ite_and]

/-- Settles O21: the gate by the dispatch of a gated instruction, the echo by the events of the cycle (O8). -/
theorem disarmedGateDropsCommands : Obligations.DisarmedGateDropsCommands := by
  refine ⟨fun i s hdisarmed hreset hdeactivate hreactivate =>
    exec_gated_of_disarmed hdisarmed (ungated_eq_false hreset hdeactivate hreactivate),
    fun s t i _ h hi hidle henvelope => ?_⟩
  obtain ⟨before, after, hevents, -, -⟩ := cycleEchoesItsFrame s t h
  simp only [hi, if_neg (not_or.mpr ⟨hidle, henvelope⟩)] at hevents
  simp [hevents]

/-! What every dispatch leaves unchanged (R170). -/

/-- Only DEACTIVATE and REACTIVATE change the mode (R187, R188). -/
theorem arming_of_armedAfter_ne {armed : Bool} {i : Instr} (h : armedAfter armed i ≠ armed) :
    (∃ p, i = .deactivate p) ∨ ∃ p, i = .reactivate p := by
  cases i with
  | deactivate p => exact .inl ⟨p, rfl⟩
  | reactivate p => exact .inr ⟨p, rfl⟩
  | _ => exact absurd rfl h

/-- A flag that a disjunct changes was set by the disjunct. -/
theorem eq_true_of_or_ne_left {a b : Bool} (h : (a || b) ≠ a) : b = true := by
  by_contra hb
  exact h (Bool.or_eq_left_iff_imp.mpr fun hset => absurd hset hb)

/-- Settles O22: each field of the state after a dispatch. -/
theorem dispatchFrame : Obligations.DispatchFrame := by
  intro i s t h
  rw [exec_eq] at h
  cases h
  refine ⟨rfl, rfl, rfl, rfl, rfl, rfl, ⟨_, rfl⟩, arming_of_armedAfter_ne, fun hemu => ?_, fun hrestart => ?_⟩
  · obtain ⟨harmed, hemulate⟩ := (Bool.and_eq_true _ _).mp (eq_true_of_or_ne_left hemu)
    exact ⟨harmed, (isEmulate_iff i).mp hemulate⟩
  · exact (isReset_iff i).mp (eq_true_of_or_ne_left hrestart)

/-! ENVELOPE (R180 to R182). -/

/-- A motion effect named by an opcode value is that of the axis the value names (R11, R172). -/
theorem State.motionOpEvents_of_axis {op : Nat} {a : Axis} (h : axisOfOpcode op = some a) (s : State) (p : Payload) :
    s.motionOpEvents op p = s.motionEvents a p := by
  rw [State.motionOpEvents, h]

/-- Settles O24: WF_ENV_AXES names both axes, and the events are those of the three effects in their order. -/
theorem envelopeDrivesAxesThenOutput : Obligations.EnvelopeDrivesAxesThenOutput := by
  intro p s hwf
  obtain ⟨a, b, ha, hb⟩ := hwf.envAxes
  have heffect : s.effectEvents (.envelope p) = s.motionEvents a p
      ++ (if s.cycle % s.cfg.envPeriod = 0 then s.motionEvents b p else [])
      ++ s.binaryEvents s.cfg.envOutput (envLevel s.cfg p) := by
    simp only [State.effectEvents, State.envelopeEvents, State.motionOpEvents_of_axis ha,
      State.motionOpEvents_of_axis hb, onCadence_iff]
  refine ⟨a, b, ha, hb, ?_⟩
  rw [exec_gated_emits rfl rfl, heffect, ite_and]
  rfl

/-! The sink calls of a disarmed cycle (R193, R220). -/

/-- A report goes to no actuator and no output. -/
theorem Event.isSinkCall_of_isReport {e : Event} (h : e.isReport = true) : e.isSinkCall = false :=
  match e, h with
  | .report _, _ => rfl

/-- An echo goes to no actuator and no output. -/
theorem Event.isSinkCall_of_isEcho {e : Event} (h : e.isEcho = true) : e.isSinkCall = false :=
  match e, h with
  | .echo _ _, _ => rfl

/-- An instruction decided before the gate calls no sink: its one event is the restart request (R187 to R189). -/
theorem State.effectEvents_of_ungated (s : State) {i : Instr} (hungated : ungated i = true) :
    ∀ e ∈ s.effectEvents i, e.isSinkCall = false := by
  cases i with
  | deactivate p | reactivate p => exact List.forall_mem_nil _
  | reset p => exact List.forall_mem_singleton.mpr rfl
  | _ => cases hungated

/-- The dispatch of a disarmed cycle calls no sink (R171, R193). -/
theorem State.dispatchEvents_of_disarmed {s : State} (hdisarmed : s.armed = false) :
    ∀ e ∈ s.dispatchEvents, e.isSinkCall = false := by
  unfold State.dispatchEvents
  rw [hdisarmed]
  split
  next i hi =>
    cases hgate : ungated i with
    | true => exact s.beforeDispatch.effectEvents_of_ungated hgate
    | false => exact List.forall_mem_nil _
  next => exact List.forall_mem_nil _

/-- Settles O32: of the four sources of a cycle's events only phase 1 calls a sink. -/
theorem disarmedCycleCallsOnlyTheIndicator : Obligations.DisarmedCycleCallsOnlyTheIndicator := by
  intro s t h hdisarmed e he hsink
  have hnotSink : e.isSinkCall ≠ false := Bool.ne_false_iff.mpr hsink
  obtain ⟨-, hsense⟩ := s.indicatedUpTo_atMostOne s.cfg.numChannels
  obtain ⟨-, hreport⟩ := s.sensed.reportEvents_atMostOne
  obtain ⟨-, hecho⟩ := s.agged.echoEvents_atMostOne
  rw [step_events h, List.mem_append, List.mem_append, List.mem_append] at he
  obtain ((he | he) | he) | he := he
  · exact hsense e he
  · exact absurd (Event.isSinkCall_of_isReport (hreport e he)) hnotSink
  · exact absurd (Event.isSinkCall_of_isEcho (hecho e he)) hnotSink
  · exact absurd (State.dispatchEvents_of_disarmed hdisarmed e he) hnotSink

/-! The single instructions (R174 to R189). -/

/-- Settles O20: `exec_eq` gives the next state of every dispatch. -/
theorem everyDispatchCompletes : Obligations.EveryDispatchCompletes :=
  fun i s => ⟨s.dispatched i, exec_eq i s⟩

/-- Settles O23: row by row, the opcode map names the instruction, whose one event is that of its axis. -/
theorem motionCommandsSetTheirAxis : Obligations.MotionCommandsSetTheirAxis := by
  intro p s
  simp only [List.forall_mem_cons]
  exact ⟨⟨rfl, exec_gated_emits_if rfl rfl rfl⟩, ⟨rfl, exec_gated_emits_if rfl rfl rfl⟩,
    ⟨rfl, exec_gated_emits_if rfl rfl rfl⟩, ⟨rfl, exec_gated_emits_if rfl rfl rfl⟩,
    ⟨rfl, exec_gated_emits_if rfl rfl rfl⟩, List.forall_mem_nil _⟩

/-- Settles O25: the one event of EYES and of FOG has the binding as its condition. -/
theorem binaryCommandsSetTheirOutput : Obligations.BinaryCommandsSetTheirOutput :=
  fun _ _ => ⟨exec_gated_emits_if rfl rfl rfl, exec_gated_emits_if rfl rfl rfl⟩

/-- Settles O26: IDLE is the row of opcode 0, one of the two opcodes the echo leaves out. -/
theorem idleIsANoOp : Obligations.IdleIsANoOp := by
  intro p s
  refine ⟨rfl, ?_, rfl⟩
  rw [echoOf_eq]
  exact if_pos (.inl rfl)

/-- Settles O27: both emit their own event when armed and write nothing else. -/
theorem aliveAndUnknownOnlyLog : Obligations.AliveAndUnknownOnlyLog :=
  fun _ _ s => ⟨exec_gated_emits rfl rfl s, exec_gated_emits rfl rfl s⟩

/-- EMULATE_RADAR sets the flag behind the armed gate (R186). -/
theorem exec_emulateRadar (p : Payload) (s : State) :
    exec (.emulateRadar p) s = .next (s.whenArmed fun t => { t with emu := true }) := rfl

/-- Settles O28: the gate in each mode. -/
theorem emulateRadarSetsTheFlag : Obligations.EmulateRadarSetsTheFlag := by
  intro p s
  by_cases harmed : s.armed = true
  · rw [exec_emulateRadar, State.whenArmed_of_armed harmed, if_pos harmed]
  · rw [exec_gated_of_disarmed (Bool.eq_false_iff.mpr harmed) rfl, if_neg harmed]

/-- Settles O29: each command writes the mode and nothing else, from either mode. -/
theorem armingCommandsSetTheMode : Obligations.ArmingCommandsSetTheMode := by
  intro p s
  have hdeactivate : exec (.deactivate p) s = .next { s with armed := false } := rfl
  have hreactivate : exec (.reactivate p) s = .next { s with armed := true } := rfl
  refine ⟨hdeactivate, hreactivate, fun hdisarmed => ?_, fun harmed => ?_⟩
  · rw [hdeactivate, State.with_armed_self hdisarmed]
  · rw [hreactivate, State.with_armed_self harmed]

/-- Settles O30: the dispatch of RESET, evaluated. -/
theorem resetRequestsRestart : Obligations.ResetRequestsRestart :=
  fun _ _ => rfl

end Sys2Proof.Machine

/-! The sensor engine (R210 to R234): the default average, the counter and detection on one channel record, a bound
channel over a cycle and over runs, and the indicator. -/

namespace Sys2Proof.Machine

/-! The average and the counter (R212, R213). -/

/-- Settles O44: the floor average is between its operands, and at counter 0 it is the sample over 1. -/
theorem averageStaysBetween : Obligations.AverageStaysBetween := by
  intro cfg c v hrule
  rw [Channel.sense_avg, avgUpdate_floor hrule]
  obtain ⟨hlow, hhigh⟩ := floorAverage_between c.n c.avg v
  exact ⟨hlow, hhigh, fun hn => by simp [hn]⟩

/-- An average equal to the sample stays so, and the first sample is the average (R212, R230). -/
theorem floorAverage_of_constant {n avg v : Nat} (h : n = 0 ∨ avg = v) : (n * avg + v) / (n + 1) = v := by
  rcases h with rfl | rfl
  · simp
  · rw [← Nat.succ_mul, Nat.mul_div_cancel_left _ (Nat.succ_pos n)]

/-- Settles O48: the average rises by at most the excess of the gap over the floor. -/
theorem risingGapStaysAboveFloor : Obligations.RisingGapStaysAboveFloor := by
  intro cfg c v hrule hn hgap
  obtain ⟨excess, rfl⟩ := Nat.exists_eq_add_of_le hgap
  have hmul : c.n * c.avg + (c.avg + cfg.avgFloor + excess) < (c.n + 1) * (c.avg + excess + 1) := by nlinarith
  have hdiv := Nat.div_lt_of_lt_mul hmul
  rw [Channel.sense_avg, avgUpdate_floor hrule]
  omega

/-- Below the cap the counter goes on by one (R213). -/
theorem countNext_of_below {cfg : Config} {n : Nat} (h : n + 1 ≠ cfg.avgCap) : countNext cfg n = n + 1 := if_neg h

/-- At the cap the counter drops to the floor (R213). -/
theorem countNext_at_cap {cfg : Config} {n : Nat} (h : n + 1 = cfg.avgCap) : countNext cfg n = cfg.avgFloor := if_pos h

/-- Settles O45: the counter drops to the floor at the cap and grows elsewhere. -/
theorem counterStaysBelowCap : Obligations.CounterStaysBelowCap := by
  intro cfg c v hwf hn
  refine ⟨countNext_lt hwf.avg.2 hn, fun hfloor => ?_⟩
  rw [Channel.sense_n]
  by_cases hcap : c.n + 1 = cfg.avgCap
  · exact (countNext_at_cap hcap).ge
  · rw [countNext_of_below hcap]
    exact Nat.le_succ_of_le hfloor

/-! Detection (R214 to R219). -/

/-- A deviating sample opens an event or counts it on (R216). -/
theorem detect_of_deviating {cfg : Config} {dev : Nat} (h : cfg.noiseThreshold < dev) (active : Bool) (grad : Int) :
    detect cfg active dev grad = if active then .counts else .opens := if_pos h

/-- A sample that does not deviate closes an active event with a small gradient, and else holds (R217, R218). -/
theorem detect_of_near {cfg : Config} {dev : Nat} (h : dev ≤ cfg.noiseThreshold) (active : Bool) (grad : Int) :
    detect cfg active dev grad = if active = true ∧ grad.natAbs < cfg.endThreshold then .closes else .holds :=
  if_neg h.not_gt

/-- What SENSE writes to `active` and `dur`, by the case of detection (R216 to R219). -/
theorem Channel.sense_of_detection {cfg : Config} {c : Channel} {v : Nat} {d : Detection}
    (h : c.detection cfg v = d) :
    (c.sense cfg v).active = activeAfter c.active d ∧ (c.sense cfg v).dur = durAfter cfg c.dur d := by
  subst h
  exact ⟨rfl, rfl⟩

/-- Settles O43: each clause names its case of detection. -/
theorem detectionOpensCountsClosesHolds : Obligations.DetectionOpensCountsClosesHolds := by
  intro cfg c v
  refine ⟨c.devOf cfg v, c.gradOf v, rfl, rfl, fun hdev hinactive => ?_, fun hdev hactive => ?_,
    fun hdev hactive hgrad => ?_, fun hdev hother => ?_⟩
  · have hopens : c.detection cfg v = .opens := by
      rw [Channel.detection, detect_of_deviating hdev, hinactive]
      rfl
    exact Channel.sense_of_detection hopens
  · have hcounts : c.detection cfg v = .counts := by
      rw [Channel.detection, detect_of_deviating hdev, if_pos hactive]
    obtain ⟨hactive', hdur⟩ := Channel.sense_of_detection hcounts
    exact ⟨hactive'.trans hactive, hdur⟩
  · have hcloses : c.detection cfg v = .closes := by
      rw [Channel.detection, detect_of_near hdev, if_pos ⟨hactive, hgrad⟩]
    exact Channel.sense_of_detection hcloses
  · have hnot : ¬ (c.active = true ∧ (c.gradOf v).natAbs < cfg.endThreshold) := by
      rintro ⟨hactive, hgrad⟩
      rcases hother with hinactive | hlarge
      · exact Bool.false_ne_true (hinactive.symm.trans hactive)
      · exact hgrad.not_ge hlarge
    have hholds : c.detection cfg v = .holds := by
      rw [Channel.detection, detect_of_near hdev, if_neg hnot]
    exact Channel.sense_of_detection hholds

/-! A bound channel over a cycle that does not restart (R210 to R218, R222, R233). -/

/-- With no score pending, a real aggregation only clears the duration of a closed channel (R222, R224). -/
theorem Channel.clearScore_fold_of_zero {cfg : Config} {c : Channel} (h : c.score = 0) :
    (c.fold cfg).clearScore = { c with dur := if c.active = false then 0 else c.dur } := by
  have hdur : (if c.active = false ∧ 0 < c.dur then 0 else c.dur) = if c.active = false then 0 else c.dur := by
    cases c.active with
    | true => simp
    | false => simp [Nat.pos_iff_ne_zero]
  rw [Channel.clearScore_fold_eq, hdur, ← h]

/-- A bound channel after a cycle that does not restart is the sensed one, its duration cleared where a real
aggregation finds it closed. -/
theorem step_chan_of_bound {s t : State} {k : Nat} (hs : s.Inv) (h : step s = .next t)
    (hreset : ∀ p, s.cycleInstr ≠ some (.reset p)) (hk : k < s.cfg.numChannels)
    (hbound : s.cfg.inputBoundAt k = true) {c : Channel} (hc : (s.chan k).sense s.cfg (s.sampleAt k) = c) :
    t.chan k = { c with dur := if s.cycle % s.cfg.aggPeriod = 0 ∧ (s.emu = false ∨ s.cfg.emulationPermitted = false)
      ∧ c.active = false then 0 else c.dur } := by
  obtain ⟨-, -, hlen, hchan, -⟩ := hs
  obtain ⟨-, -, -, -, -, hscore, -⟩ := hchan k hk
  have hscore : c.score = 0 := by
    rw [← hc, Channel.sense_score, hscore]
  rw [step_chan h (State.afterPhase4_restart_eq_false hreset) (hlen ▸ hk) hk]
  simp only [hbound, if_true, hc, onCadence_iff, ← s.emulates_eq_false_iff]
  by_cases hcadence : s.cycle % s.cfg.aggPeriod = 0
  · cases hemu : s.emulates with
    | true => simp [hcadence, Channel.clearScore_of_zero hscore]
    | false => simp [hcadence, Channel.clearScore_fold_of_zero hscore]
  · simp [hcadence]

/-- Settles O42: an aggregation touches neither history, average nor counter of the sensed channel. -/
theorem senseUpdatesHistoryAverageAndCounter : Obligations.SenseUpdatesHistoryAverageAndCounter := by
  intro s t k hs h hreset hk hbound
  rw [step_chan_of_bound hs h hreset hk hbound rfl]
  exact ⟨rfl, fun hrule => avgUpdate_floor hrule _ _ _, countNext_at_cap, countNext_of_below⟩

/-- Settles O54: the two fields of the channel after the cycle. -/
theorem senseUpdatesActiveAndDuration : Obligations.SenseUpdatesActiveAndDuration := by
  intro s t k hs h hreset hk hbound
  rw [step_chan_of_bound hs h hreset hk hbound rfl]
  exact ⟨rfl, rfl⟩

/-! A constant sample (R230). -/

/-- The channel is inactive with duration 0, and its average is `v` once it has taken a sample. -/
def Channel.RestsAt (v : Nat) (c : Channel) : Prop :=
  c.active = false ∧ c.dur = 0 ∧ (c.n = 0 ∨ c.avg = v)

theorem Channel.restsAt_atReset (cfg : Config) (v : Nat) : (Channel.atReset cfg).RestsAt v :=
  ⟨rfl, rfl, .inl rfl⟩

/-- At rest the sample does not deviate from the average it updates, so detection holds (R215, R218). -/
theorem Channel.RestsAt.sense {cfg : Config} {c : Channel} {v : Nat} (hc : c.RestsAt v)
    (hrule : cfg.avgRule = .floorDivision) : (c.sense cfg v).RestsAt v := by
  obtain ⟨hinactive, hdur, havg⟩ := hc
  have havg' : c.avgAfter cfg v = v := (avgUpdate_floor hrule _ _ _).trans (floorAverage_of_constant havg)
  have hdev : c.devOf cfg v = 0 := by simp [Channel.devOf, deviation, havg']
  have hholds : c.detection cfg v = .holds := by
    rw [Channel.detection, detect_of_near (hdev ▸ Nat.zero_le _), hinactive]
    simp
  obtain ⟨hactive', hdur'⟩ := Channel.sense_of_detection hholds
  exact ⟨hactive'.trans hinactive, hdur'.trans hdur, .inr havg'⟩

/-- Settles O56: a restart leaves the channel at reset, and any other cycle senses it at rest. -/
theorem constantSampleKeepsChannelInactive : Obligations.ConstantSampleKeepsChannelInactive := by
  rintro s t k _ hs hrule hk hbound rfl hinactive hdur havg h
  change (t.chan k).RestsAt (s.sampleAt k)
  by_cases hreset : ∃ p, s.cycleInstr = some (.reset p)
  · rw [step_chan_of_restart h (s.afterPhase4_restart_iff.mpr hreset)]
    exact Channel.restsAt_atReset s.cfg _
  · have hrest : (s.chan k).RestsAt (s.sampleAt k) := ⟨hinactive, hdur, havg⟩
    obtain ⟨hactive', hdur', havg'⟩ := hrest.sense hrule
    rw [step_chan_of_bound hs h (not_exists.mp hreset) hk hbound rfl]
    exact ⟨hactive', by dsimp only; rw [hdur', ite_self], havg'⟩

end Sys2Proof.Machine

/-! Runs over scripted inputs from power-on (R230), and the indicator (R220). -/

namespace Sys2Proof.Machine

/-! A run whose every step takes a scripted input. -/

/-- A step spends the head of the script. -/
theorem step_inputs {s t : State} (h : step s = .next t) : t.inputs = s.inputs.tail := by
  obtain ⟨-, rfl⟩ := (step_next_iff s t).mp h
  rw [State.afterDispatch_inputs, State.afterPhase4_inputs]

/-- A run of `m + 1` steps that ends in a state is a step and a run of `m`. -/
theorem core_run_succ {m : Nat} {s t : State} (h : core.run (m + 1) s = .next t) :
    ∃ u, step s = .next u ∧ core.run m u = .next t := by
  simp only [Host.Core.run] at h
  split at h
  next u hstep => exact ⟨u, hstep, h⟩
  next => cases h
  next => cases h

/-- What every step on a scripted input keeps holds after a run the script covers. -/
theorem core_run_keeps {P : State → Prop}
    (hkeeps : ∀ s t, P s → s.inputs ≠ [] → step s = .next t → P t) {m : Nat} {s t : State} (hs : P s)
    (hm : m ≤ s.inputs.length) (h : core.run m s = .next t) : P t := by
  induction m generalizing s with
  | zero =>
    cases h
    exact hs
  | succ m ih =>
    obtain ⟨u, hstep, hrun⟩ := core_run_succ h
    have hscripted : s.inputs ≠ [] := List.ne_nil_of_length_pos (by omega)
    refine ih (hkeeps s u hs hscripted hstep) ?_ hrun
    rw [step_inputs hstep, List.length_tail]
    omega

/-! A channel fed a constant. -/

/-- The scripted samples of channel `k`, which has an input, all read `v`, and the channel is at rest there. -/
structure State.FedConstant (k v : Nat) (s : State) : Prop where
  inv : s.Inv
  rule : s.cfg.avgRule = .floorDivision
  channel : k < s.cfg.numChannels
  bound : s.cfg.inputBoundAt k = true
  samples : ∀ i ∈ s.inputs, i.samples.getD k 0 % 2 ^ s.cfg.sampleBits = v
  rests : (s.chan k).RestsAt v

/-- The current input is the head of the script (R54). -/
theorem State.input_mem {s : State} (h : s.inputs ≠ []) : s.input ∈ s.inputs := by
  unfold State.input
  cases hs : s.inputs with
  | nil => exact absurd hs h
  | cons i is => exact List.mem_cons_self

/-- A step on a scripted input keeps the channel fed and at rest, by O17 and O56. -/
theorem State.FedConstant.step {k v : Nat} {s t : State} (hs : s.FedConstant k v) (hscripted : s.inputs ≠ [])
    (h : step s = .next t) : t.FedConstant k v := by
  have hsample : s.sampleAt k = v := hs.samples _ (State.input_mem hscripted)
  obtain ⟨hinactive, hdur, havg⟩ := hs.rests
  have hcfg := step_cfg h
  exact {
    inv := stepKeepsInvariant s t hs.inv h
    rule := hcfg ▸ hs.rule
    channel := hcfg ▸ hs.channel
    bound := hcfg ▸ hs.bound
    samples := by
      rw [step_inputs h, hcfg]
      exact fun i hi => hs.samples i (List.mem_of_mem_tail hi)
    rests := constantSampleKeepsChannelInactive s t k v hs.inv hs.rule hs.channel hs.bound hsample hinactive hdur
      havg h }

/-- Every channel of the power-on state is at reset (R281). -/
theorem State.powerOn_chan (cfg : Config) (k : Nat) : (State.powerOn cfg).chan k = Channel.atReset cfg := by
  simp [State.chan, State.powerOn, List.getD_eq_getElem?_getD]

/-- The invariant holds at power-on under a well-formed CFG (R281). -/
theorem State.inv_powerOn {cfg : Config} (h : CfgWF cfg) : (State.powerOn cfg).Inv := by
  obtain ⟨-, -, hwrap, -⟩ := h.periods
  refine ⟨h, hwrap, List.length_replicate, fun k _ => ?_, rfl⟩
  rw [State.powerOn_chan]
  exact Channel.inv_atReset h _

/-- Settles O47: the channel rests at power-on, and every step of the run keeps it at rest. -/
theorem constantChannelNeverBecomesActive : Obligations.ConstantChannelNeverBecomesActive := by
  intro cfg rx ins k v m t hwf hrule hk hbound hsamples hm h
  have hstart : State.FedConstant k v { State.powerOn cfg with rx := rx, inputs := ins } :=
    { inv := State.inv_powerOn hwf
      rule := hrule
      channel := hk
      bound := hbound
      samples := hsamples
      rests := (State.powerOn_chan cfg k).symm ▸ Channel.restsAt_atReset cfg v }
  exact (core_run_keeps (fun _ _ => State.FedConstant.step) hstart hm h).rests

/-! The indicator (R220). -/

/-- Where the reference channel has an input and the output is bound, phase 1 emits the level of its `active`. -/
theorem State.Inv.indicated_of_bound {s : State} (hs : s.Inv) (hinput : s.cfg.inputBoundAt s.cfg.refChannel = true)
    (hbound : s.cfg.binIndicator = true) :
    s.indicatedUpTo s.cfg.numChannels = [.setLevel .indicator
      ((s.chan s.cfg.refChannel).sense s.cfg (s.sampleAt s.cfg.refChannel)).active] := by
  obtain ⟨hwf, -, hlen, -, -⟩ := hs
  have href := hwf.ref
  have hchan := s.sensed_chan (hlen ▸ href)
  rw [if_pos ⟨href, hinput⟩] at hchan
  rw [State.indicatedUpTo, if_pos ⟨href, hinput, hbound⟩, ← hchan, State.chan, State.sensed_ch, State.sensed_cfg]

/-- Without the input or the binding phase 1 emits nothing. -/
theorem State.indicatedUpTo_of_unbound {s : State}
    (h : s.cfg.inputBoundAt s.cfg.refChannel = false ∨ s.cfg.binIndicator = false) (m : Nat) :
    s.indicatedUpTo m = [] := by
  refine if_neg ?_
  rintro ⟨-, hinput, hbound⟩
  rcases h with hno | hno
  · exact Bool.false_ne_true (hno.symm.trans hinput)
  · exact Bool.false_ne_true (hno.symm.trans hbound)

/-- A motion effect writes no level (R172). -/
theorem State.setLevel_notMem_motionEvents (s : State) (a : Axis) (p : Payload) (b : BinOut) (l : Bool) :
    Event.setLevel b l ∉ s.motionEvents a p := by
  unfold State.motionEvents
  split <;> simp

theorem State.setLevel_notMem_motionOpEvents (s : State) (op : Nat) (p : Payload) (b : BinOut) (l : Bool) :
    Event.setLevel b l ∉ s.motionOpEvents op p := by
  unfold State.motionOpEvents
  split
  · exact s.setLevel_notMem_motionEvents _ p b l
  · exact List.not_mem_nil

/-- A binary-output effect writes its own output only (R173). -/
theorem State.output_of_mem_binaryEvents {s : State} {b b' : BinOut} {l l' : Bool}
    (h : Event.setLevel b' l' ∈ s.binaryEvents b l) : b = b' := by
  unfold State.binaryEvents at h
  split at h
  · cases List.mem_singleton.mp h
    rfl
  · cases h

/-- Of the instructions only an ENVELOPE whose output is the indicator writes the indicator (R180, R183, R184). -/
theorem State.envelope_of_indicator_mem {s : State} {i : Instr} {l : Bool}
    (h : Event.setLevel .indicator l ∈ s.effectEvents i) :
    (∃ p, i = .envelope p) ∧ s.cfg.envOutput = .indicator := by
  cases i with
  | envelope p =>
    rw [State.effectEvents, State.envelopeEvents, List.mem_append, List.mem_append] at h
    obtain (ha | hb) | hout := h
    · exact absurd ha (s.setLevel_notMem_motionOpEvents _ p _ l)
    · split at hb
      · exact absurd hb (s.setLevel_notMem_motionOpEvents _ p _ l)
      · cases hb
    · exact ⟨⟨p, rfl⟩, State.output_of_mem_binaryEvents hout⟩
  | eyes p | fog p => cases State.output_of_mem_binaryEvents h
  | bodyTilt p | wings p | headTilt p | headRotate p | beak p =>
    exact absurd h (s.setLevel_notMem_motionEvents _ p _ l)
  | isAlive p | reset p | unknown op p => cases List.mem_singleton.mp h
  | idle p | emulateRadar p | deactivate p | reactivate p => cases h

/-- An indicator level of the dispatch is that of an ENVELOPE whose output is the indicator. -/
theorem State.envelope_of_indicator_dispatched {s : State} {l : Bool}
    (h : Event.setLevel .indicator l ∈ s.dispatchEvents) :
    ∃ p, s.cycleInstr = some (.envelope p) ∧ s.cfg.envOutput = .indicator := by
  unfold State.dispatchEvents at h
  split at h
  next i hi =>
    split at h
    · obtain ⟨⟨p, rfl⟩, hout⟩ := State.envelope_of_indicator_mem h
      exact ⟨p, hi, s.beforeDispatch_cfg ▸ hout⟩
    · cases h
  next => cases h

/-- Settles O46: of the other sources of a cycle's events only the dispatch can write a level. -/
theorem indicatorShowsTheReferenceChannel : Obligations.IndicatorShowsTheReferenceChannel := by
  intro s t hs h
  refine ⟨fun hinput hbound => ?_, fun hno => ⟨?_, fun l hl => ?_⟩⟩
  · rw [step_events h, hs.indicated_of_bound hinput hbound]
    rfl
  · exact s.sensed_events.trans (State.indicatedUpTo_of_unbound hno _)
  · obtain ⟨-, hreport⟩ := s.sensed.reportEvents_atMostOne
    obtain ⟨-, hecho⟩ := s.agged.echoEvents_atMostOne
    rw [step_events h, State.indicatedUpTo_of_unbound hno, List.nil_append, List.mem_append, List.mem_append] at hl
    obtain (hl | hl) | hl := hl
    · cases hreport _ hl
    · cases hecho _ hl
    · exact State.envelope_of_indicator_dispatched hl

end Sys2Proof.Machine

/-! Aggregation (R221 to R229): what a real and an emulated aggregation find, and the reports of a cycle. -/

namespace Sys2Proof.Machine

/-- The report of an aggregation, if it finds something (R223). -/
def State.foundReport (s : State) : List Event :=
  if s.found then [.report (s.scored.map Channel.score)] else []

theorem State.aggregate_eq (s : State) : s.aggregate = { s with
    ch := s.scored.map Channel.clearScore
    emu := false
    events := s.events ++ s.foundReport } := rfl

theorem State.reportEvents_on_cadence {s : State} (h : s.cycle % s.cfg.aggPeriod = 0) :
    s.reportEvents = s.foundReport := by
  simp [State.reportEvents, State.foundReport, (onCadence_iff _ _).mpr h]

theorem State.reportEvents_off_cadence {s : State} (h : s.cycle % s.cfg.aggPeriod ≠ 0) : s.reportEvents = [] :=
  if_neg fun hfound => h ((onCadence_iff _ _).mp hfound.1)

/-- Settles O49: the reports of a step are those of phase 2, of which there are none off the cadence. -/
theorem reportsOnlyOnCadence : Obligations.ReportsOnlyOnCadence := by
  intro s t h
  obtain ⟨hone, -⟩ := s.sensed.reportEvents_atMostOne
  refine ⟨(step_reports h).symm ▸ hone, fun ⟨e, he, hreport⟩ => ?_⟩
  by_contra hoff
  have hmem : e ∈ s.sensed.reportEvents := step_reports h ▸ List.mem_filter.mpr ⟨he, hreport⟩
  rw [State.reportEvents_off_cadence (by simpa using hoff)] at hmem
  cases hmem

/-! A real aggregation (R222 to R224). -/

theorem State.scored_of_real {s : State} (h : s.emulates = false) : s.scored = s.ch.map (Channel.fold s.cfg) := by
  simp [State.scored, h]

/-- A real aggregation reports the folded scores if one of them is positive (R222, R223). -/
theorem State.foundReport_of_real {s : State} (h : s.emulates = false) {scores : List Nat}
    (hscores : s.ch.map (fun c => (c.fold s.cfg).score) = scores) :
    s.foundReport = if ∃ x ∈ scores, 0 < x then [.report scores] else [] := by
  subst hscores
  simp [State.foundReport, State.found, State.scored_of_real h, h, Function.comp_def]

/-- Settles O50: the fold and the clear of each channel, and the report of the folded scores. -/
theorem realAggregationFoldsReportsAndClears : Obligations.RealAggregationFoldsReportsAndClears := by
  intro s hreal
  have hemu := s.emulates_eq_false_iff.mpr hreal
  have hchannels : Channel.clearScore ∘ Channel.fold s.cfg = fun c =>
      { c with dur := if c.active = false ∧ 0 < c.dur then 0 else c.dur, score := 0 } :=
    funext (Channel.clearScore_fold_eq s.cfg)
  refine ⟨_, rfl, ?_⟩
  rw [State.aggregate_eq, State.foundReport_of_real hemu (List.map_congr_left fun c _ => c.fold_score s.cfg),
    State.scored_of_real hemu, List.map_map, hchannels]
  rfl

/-! An emulated aggregation (R225, R227, R233). -/

/-- A draw within the ranges of R57 is read as it is. -/
theorem drawInRange_of_legal {cfg : Config} {d : Draw} (hidx : d.idx < cfg.emuIndexSpan) (hmain1 : 1 ≤ d.main)
    (hmain : d.main ≤ cfg.emuMainMax) (hleft : d.left ≤ cfg.emuNeighborMax) (hright : d.right ≤ cfg.emuNeighborMax) :
    drawInRange cfg d = d := by
  simp [drawInRange, Nat.mod_eq_of_lt hidx, hmain1, hmain, Nat.mod_eq_of_lt (Nat.lt_succ_of_le hleft),
    Nat.mod_eq_of_lt (Nat.lt_succ_of_le hright)]

/-- The scores of a draw whose index is a channel (R225, R227). -/
def drawnScores (cfg : Config) (d : Draw) : List Nat :=
  (List.range cfg.numChannels).map fun k =>
    sat cfg.scoreBits (if k = d.idx then d.main else if k + 1 = d.idx then d.left
      else if k = d.idx + 1 then d.right else 0)

theorem emulatedScores_eq_drawnScores {cfg : Config} {d : Draw} {ch : List Channel} (hd : d.idx < cfg.numChannels)
    (hlen : ch.length = cfg.numChannels) (hzero : ∀ c ∈ ch, c.score = 0) :
    (emulatedScores cfg d ch).map Channel.score = drawnScores cfg d := by
  refine List.ext_getElem? fun k => ?_
  rw [List.getElem?_map]
  by_cases hk : k < ch.length
  · rw [emulatedScores_score hd hlen hk hzero]
    simp [drawnScores, hlen ▸ hk]
  · simp [drawnScores, hlen ▸ hk, hk]

/-- An emulated aggregation reports the draw exactly where its index is a channel (R225). -/
theorem State.foundReport_of_emulated {s : State} (h : s.emulates = true) (hlen : s.ch.length = s.cfg.numChannels)
    (hzero : ∀ c ∈ s.ch, c.score = 0) :
    s.foundReport = if s.draw.idx < s.cfg.numChannels then [.report (drawnScores s.cfg s.draw)] else [] := by
  by_cases hidx : s.draw.idx < s.cfg.numChannels
  · simp [State.foundReport, State.found, State.scored, h, hidx, emulatedScores_eq_drawnScores hidx hlen hzero]
  · simp [State.foundReport, State.found, h, hidx]

/-- With no score pending an emulated aggregation leaves every channel as it was (R224, R233). -/
theorem State.clearScore_scored_of_emulated {s : State} (h : s.emulates = true) (hzero : ∀ c ∈ s.ch, c.score = 0) :
    s.scored.map Channel.clearScore = s.ch := by
  rw [State.scored, if_pos h, map_clearScore_emulated]
  exact (List.map_congr_left fun c hc => Channel.clearScore_of_zero (hzero c hc)).trans (List.map_id _)

theorem State.emulates_iff (s : State) :
    s.emulates = true ↔ s.emu = true ∧ s.cfg.emulationPermitted = true :=
  Bool.and_eq_true_iff

/-- Settles O51: the draw as the port reads it, and its report. -/
theorem emulatedAggregationReportsTheDraw : Obligations.EmulatedAggregationReportsTheDraw := by
  intro s hemu hpermitted hlen hzero hspan hmax
  obtain ⟨hidx, hmain1, hmain, hleft, hright⟩ := drawInRange_bounds hspan hmax s.input.draw
  have hemulates := s.emulates_iff.mpr ⟨hemu, hpermitted⟩
  refine ⟨s.draw, hidx, hmain1, hmain, hleft, hright, drawInRange_of_legal, ?_⟩
  rw [State.aggregate_eq, State.foundReport_of_emulated hemulates hlen hzero,
    State.clearScore_scored_of_emulated hemulates hzero]
  rfl

/-! The reports of a cycle (R221 to R225). -/

/-- The channel file after phase 1: each bound channel sensed (R44, R210). -/
theorem State.sensed_ch_eq_map {s : State} (hlen : s.ch.length = s.cfg.numChannels) :
    s.sensed.ch = (List.range s.cfg.numChannels).map fun k =>
      if s.cfg.inputBoundAt k = true then (s.chan k).sense s.cfg (s.sampleAt k) else s.chan k := by
  refine List.ext_getElem (by simp [hlen]) fun k hk _ => ?_
  have hk' : k < s.ch.length := by simpa using hk
  have hchan := s.sensed_chan hk'
  simp only [hlen ▸ hk', true_and] at hchan
  rw [List.getElem_map, List.getElem_range, ← hchan]
  simp [State.chan, List.getD_eq_getElem?_getD, hk']

/-- Phase 1 leaves no score pending (R45, R210). -/
theorem State.Inv.sensed_score_eq_zero {s : State} (hs : s.Inv) : ∀ c ∈ s.sensed.ch, c.score = 0 := by
  intro c hc
  have hscore : c.score ∈ s.ch.map Channel.score := by
    rw [← s.sensedUpTo_scores s.cfg.numChannels, ← State.sensed_ch]
    exact List.mem_map_of_mem hc
  obtain ⟨c', hmem, heq⟩ := List.mem_map.mp hscore
  rw [← heq, hs.score_eq_zero hmem]

/-- With no score pending the fold scores the saturated duration of a closed channel (R222). -/
theorem Channel.fold_score_of_zero {cfg : Config} {c : Channel} (h : c.score = 0) :
    (c.fold cfg).score = if c.active = false ∧ 0 < c.dur then min c.dur (2 ^ cfg.scoreBits - 1) else 0 := by
  rw [Channel.fold_score, h, Nat.zero_add]
  rfl

/-- Settles O55: the reports of a step are those of phase 2, by the kind of its aggregation. -/
theorem cadenceCyclesReportWhatTheyFind : Obligations.CadenceCyclesReportWhatTheyFind := by
  intro s t hs h
  obtain ⟨hwf, -, hlen, -, -⟩ := id hs
  have hzero := hs.sensed_score_eq_zero
  rw [step_reports h]
  refine ⟨fun hcadence hreal => ⟨_, rfl, ?_⟩, fun hcadence hemu hpermitted => ?_, fun hoff => ?_⟩
  · rw [State.reportEvents_on_cadence (by simpa using hcadence)]
    refine State.foundReport_of_real (by simpa using s.emulates_eq_false_iff.mpr hreal) ?_
    rw [← State.sensed_ch_eq_map hlen, State.sensed_cfg]
    exact List.map_congr_left fun c hc => Channel.fold_score_of_zero (hzero c hc)
  · obtain ⟨hspan, hmax⟩ := hwf.emu
    obtain ⟨hidx, hmain1, hmain, hleft, hright⟩ := drawInRange_bounds hspan hmax s.input.draw
    have hemulates : s.sensed.emulates = true := s.sensed_emulates.trans (s.emulates_iff.mpr ⟨hemu, hpermitted⟩)
    refine ⟨s.draw, hidx, hmain1, hmain, hleft, hright, drawInRange_of_legal, ?_⟩
    rw [State.reportEvents_on_cadence (by simpa using hcadence),
      State.foundReport_of_emulated hemulates (by simpa using hlen) hzero, State.sensed_cfg, State.sensed_draw]
    rfl
  · exact State.reportEvents_off_cadence (by simpa using hoff)

end Sys2Proof.Machine

/-! Exceptions (R258, R264): what a cycle does to the mode, and the refusal of an ill-formed configuration. -/

namespace Sys2Proof.Machine

/-- The mode after a step that dispatches a frame: armed after RESET, else what the dispatch leaves (R187 to R189). -/
theorem step_armed_of_cycleInstr {s t : State} {i : Instr} (h : step s = .next t) (hi : s.cycleInstr = some i) :
    t.armed = if isReset i then true else armedAfter s.armed i := by
  rw [step_armed h, hi]
  rfl

/-- A cycle that dispatches no frame, or an instruction behind the armed gate, keeps the mode (R170, R258). -/
theorem step_armed_of_gated {s t : State} (h : step s = .next t)
    (hgated : ∀ i, s.cycleInstr = some i → ungated i = false) : t.armed = s.armed := by
  cases hi : s.cycleInstr with
  | none =>
    rw [step_armed h, hi]
    rfl
  | some i =>
    obtain ⟨hmode, hrestart⟩ := gated_keeps_mode_and_restart (hgated i hi) s.armed
    simp [step_armed_of_cycleInstr h hi, hmode, hrestart]

/-- Settles O31: the mode after a step at each of the three ungated instructions, and behind the gate. -/
theorem modeTransitions : Obligations.ModeTransitions := by
  intro s t h
  refine ⟨fun p hi => step_armed_of_cycleInstr h hi, fun p hi => step_armed_of_cycleInstr h hi,
    fun p hi => step_armed_of_cycleInstr h hi, fun hdeactivate hreactivate hreset => ?_⟩
  refine step_armed_of_gated h fun i hi => ?_
  simp only [hi, ne_eq, Option.some.injEq] at hdeactivate hreactivate hreset
  exact ungated_eq_false hreset hdeactivate hreactivate

/-- A step under an ill-formed CFG is refused by the name of the check that is reported (R264). -/
theorem step_of_failedCheck {s : State} {c : CfgCheck} (h : failedCheck s.cfg = some c) :
    step s = .refused (.illFormedConfig c) := by
  simp only [step, h]

/-- Settles O10: a check that fails rules out a well-formed CFG, and the check that is reported fails too. -/
theorem illFormedConfigIsRefusedByName : Obligations.IllFormedConfigIsRefusedByName := by
  intro s c hfails
  cases hc : failedCheck s.cfg with
  | none =>
    have hholds := (cfgWF_iff s.cfg).mp hc c
    exact absurd hholds (Bool.eq_false_iff.mp hfails)
  | some c' => exact ⟨c', failedCheck_fails hc, step_of_failedCheck hc⟩

end Sys2Proof.Machine

/-! Reset (R280 to R284): the values at power-on, what a cycle that dispatches RESET leaves, and the silence of the first
aggregation after it. -/

namespace Sys2Proof.Machine

/-! Power-on (R280, R281). -/

/-- Every record of the channel file at power-on is the one at reset (R281). -/
theorem State.eq_atReset_of_mem_powerOn {cfg : Config} {c : Channel} (hc : c ∈ (State.powerOn cfg).ch) :
    c = Channel.atReset cfg :=
  List.eq_of_mem_replicate hc

/-- Settles O33: the fields of the power-on record, and of a channel at reset. -/
theorem powerOnValues : Obligations.PowerOnValues := by
  refine ⟨fun cfg => ⟨rfl, rfl, rfl, rfl, List.length_replicate, fun c hc => ?_⟩, rfl⟩
  rw [State.eq_atReset_of_mem_powerOn hc]
  exact ⟨rfl, rfl, rfl, rfl, rfl, rfl⟩

/-- EX passes every check of R10. -/
theorem Config.cfgWF_ex : CfgWF Config.ex := by decide

/-- Settles O18: power-on under any well-formed CFG, of which EX is one. -/
theorem powerOnMeetsInvariant : Obligations.PowerOnMeetsInvariant :=
  ⟨fun _ hwf => State.inv_powerOn hwf, State.inv_powerOn Config.cfgWF_ex⟩

/-! A cycle that dispatches RESET (R189, R281, R282). -/

/-- A cycle that restarts leaves the channel file of power-on (R281). -/
theorem step_ch_of_restart {s t : State} (h : step s = .next t) (hr : s.afterPhase4.restart = true) :
    t.ch = (State.powerOn s.cfg).ch := by
  obtain ⟨-, rfl⟩ := (step_next_iff s t).mp h
  simp [State.afterDispatch, State.advance_of_restart hr, State.powerOn]

/-- In either mode the dispatch of RESET emits RESTART_REQ and nothing else (R170, R189). -/
theorem State.dispatchEvents_of_reset {s : State} {p : Payload} (hi : s.cycleInstr = some (.reset p)) :
    s.dispatchEvents = [.restartReq] := by
  simp [State.dispatchEvents, hi, ungated, State.effectEvents]

/-- The queue after a cycle that dispatches RESET: what DECODE left, or nothing (R282). -/
theorem step_rx_of_reset {s t : State} {p : Payload} (h : step s = .next t) (hi : s.cycleInstr = some (.reset p)) :
    t.rx = if s.input.keepRx = false then [] else s.beforeDispatch.rx := by
  rw [step_rx h, hi, State.beforeDispatch_rx]
  simp [isReset]

/-- Settles O34: the restart writes each field of S, and the events of phase 4 are the last ones. -/
theorem commandResetRestoresPowerOn : Obligations.CommandResetRestoresPowerOn := by
  intro s t p h hi
  have hr : s.afterPhase4.restart = true := s.afterPhase4_restart_iff.mpr ⟨p, hi⟩
  have hrx := step_rx_of_reset h hi
  refine ⟨step_armed_of_cycleInstr h hi, (step_emu h).trans (if_pos hr), (step_cycle h).trans (if_pos hr),
    step_ch_of_restart h hr, step_cfg h, fun hkeep => ?_, fun hdiscard => hrx.trans (if_pos hdiscard), ?_⟩
  · simpa [hkeep] using hrx
  · rw [step_events h, State.dispatchEvents_of_reset hi]
    exact List.getLast?_concat

/-! The first aggregation after a reset (R284). -/

/-- No score is pending, and an inactive channel has no duration for the fold to score. -/
def Channel.NothingToFold (c : Channel) : Prop := c.score = 0 ∧ (c.active = false → c.dur = 0)

/-- Such a channel has no score after the fold either (R222). -/
theorem Channel.NothingToFold.fold_score {c : Channel} (hc : c.NothingToFold) (cfg : Config) :
    (c.fold cfg).score = 0 := by
  obtain ⟨hscore, hdur⟩ := hc
  have hclosed : ¬ (c.active = false ∧ 0 < c.dur) := fun ⟨hinactive, hpos⟩ => hpos.ne' (hdur hinactive)
  rw [Channel.fold_score, if_neg hclosed, hscore]

theorem Channel.nothingToFold_atReset (cfg : Config) : (Channel.atReset cfg).NothingToFold :=
  ⟨rfl, fun _ => rfl⟩

/-- A first sample opens an event or leaves the channel inactive with duration 0: no event was active that it could
close (R216, R218). -/
theorem Channel.nothingToFold_sense_atReset (cfg : Config) (v : Nat) :
    ((Channel.atReset cfg).sense cfg v).NothingToFold := by
  refine ⟨rfl, fun hinactive => ?_⟩
  rw [Channel.sense_active] at hinactive
  rw [Channel.sense_dur]
  obtain ⟨-, -, hd⟩ | ⟨-, hactive, -⟩ | ⟨-, hactive, -⟩ | ⟨-, -, hd⟩ :=
    detect_cases cfg (Channel.atReset cfg).active ((Channel.atReset cfg).devOf cfg v) ((Channel.atReset cfg).gradOf v)
  · rw [Channel.detection, hd] at hinactive
    cases hinactive
  · cases hactive
  · cases hactive
  · rw [Channel.detection, hd]
    rfl

/-- From the reset values phase 1 leaves no channel with something to fold (R210, R281). -/
theorem State.nothingToFold_of_mem_sensed {s : State} (hch : s.ch = (State.powerOn s.cfg).ch) {c : Channel}
    (hc : c ∈ s.sensed.ch) : c.NothingToFold := by
  rw [State.sensed_ch] at hc
  obtain ⟨k, hk, rfl⟩ := List.mem_mapIdx.mp hc
  have hreset : s.ch[k] = Channel.atReset s.cfg :=
    State.eq_atReset_of_mem_powerOn (hch ▸ List.getElem_mem hk)
  rw [hreset]
  split
  · exact Channel.nothingToFold_sense_atReset s.cfg _
  · exact Channel.nothingToFold_atReset s.cfg

/-- A real aggregation with nothing to fold finds nothing, so phase 2 does not report (R222, R223). -/
theorem State.reportEvents_of_nothingToFold {s : State} (hreal : s.emulates = false)
    (hch : ∀ c ∈ s.ch, c.NothingToFold) : s.reportEvents = [] := by
  have hscored : ∀ c ∈ s.scored, c.score = 0 := by
    rw [State.scored_of_real hreal]
    exact List.forall_mem_map.mpr fun c hc => (hch c hc).fold_score s.cfg
  have hfound : s.found = false := by
    rw [State.found, hreal]
    simpa using hscored
  simp [State.reportEvents, hfound]

/-- Settles O35: the reports of a step are those of phase 2, which finds nothing in what phase 1 leaves. -/
theorem firstCycleAfterResetReportsNothing : Obligations.FirstCycleAfterResetReportsNothing := by
  intro s t hemu hch h e he
  have hreal : s.sensed.emulates = false := s.sensed_emulates.trans (s.emulates_eq_false_iff.mpr (.inl hemu))
  have hnone : t.events.filter Event.isReport = [] :=
    (step_reports h).trans (State.reportEvents_of_nothingToFold hreal fun _ => State.nothingToFold_of_mem_sensed hch)
  exact Bool.eq_false_iff.mpr (List.filter_eq_nil_iff.mp hnone e he)

end Sys2Proof.Machine
